-- ==== Sys2Proof/Word.lean ====
section
/-! DEFINITION. The word types of `async_fifo_controller`: one byte, one storage index, one 16-bit field of a command or
response word, and the 32-bit words themselves (spec rules R7, R8, R50, R94, R100). Every number is unsigned (R14). -/

namespace Sys2Proof

/-- One storage cell: 8 bits (R50). -/
abbrev Byte := BitVec 8

/-- The index field of a cursor, and the capacity register: `IDX_W` = 15 bits (R7). A machine whose `Config.idxW` is
smaller uses the low `idxW` bits and keeps the others 0. -/
abbrev Idx := BitVec 15

/-- A length operand, a requested capacity, a storage-index operand, or one half of a response: `LEN_W` = 16 bits (R8). -/
abbrev Half := BitVec 16

/-- A command word (R94). -/
abbrev CmdWord := BitVec 32

/-- A response word (R100). -/
abbrev RespWord := BitVec 32

end Sys2Proof
end

