-- ==== Sys2Proof/Syntax.lean ====
section
/-! DEFINITION. What passes through the ports: the three ports (R90), the fifteen instructions of the opcode table (R18,
R98), a command and a response (R91, R100), and the three status values (R13, R30). -/

namespace Sys2Proof

/-- The three ports (R90): P of the producer, C of the consumer, H of the host. -/
inductive Port where
  | producer
  | consumer
  | host
  deriving DecidableEq, Repr, Inhabited

/-- One constructor per row of the opcode table (R98), carrying exactly the operand fields its format has (R95):
`ARG` for format A, `BYTE` for format B, nothing for format N. -/
inductive Instr where
  | init (capReq : Half)
  | reset
  | create (capReq : Half)
  | destroy
  | status
  | dataLen
  | freeLen
  | put (len : Half)
  | putForce (len : Half)
  | putchar (b : Byte)
  | putcharForce (b : Byte)
  | get (len : Half)
  | getchar
  | peek
  | rdmem (idx : Half)
  deriving DecidableEq, Repr

/-- The derived status (R30): `HALF_FULL` means neither empty nor full. -/
inductive Status where
  | empty
  | full
  | halfFull
  deriving DecidableEq, Repr

/-- A command as an agent presents it at a port (R91): the word and the payload. `agent` names who presents it, so that
a second agent on a port can be told from the port's own (R243). -/
structure Command where
  agent : Nat
  word : CmdWord
  payload : List Byte
  deriving DecidableEq, Repr

/-- A response (R91, R100): the fields `R0` and `R1` of the response word, and the payload of a `GET`. -/
structure Response where
  r0 : Half
  r1 : Half
  payload : List Byte
  deriving DecidableEq, Repr

/-- The 32-bit response word `R1 ## R0` (R100). -/
def Response.word (r : Response) : RespWord := r.r1 ++ r.r0

end Sys2Proof
end

