-- ==== Sys2Proof/Config.lean ====
section
/-! DEFINITION. What an implementation of the block fixes (R7 to R12, R243), and the free values the spec leaves open
(R53, R67, R71). The parameters are plain data, held read-only in `State.cfg`, so that every statement over states is
a statement over every configuration. A free value is an opaque constant applied to the count of draws made so far:
nothing can be proved of which value it is. -/

namespace Sys2Proof

/-- `ASSERT_MODE` (R11): what a precondition violation does beside degrading to a no-op. -/
inductive AssertMode where
  | degrade
  | assert
  deriving DecidableEq, Repr

/-- `CURSOR_VIEW` (R12): what a sample sees of the other side's cursor. -/
inductive CursorView where
  | fresh
  | monotoneStale
  deriving DecidableEq, Repr

/-- The parameters of the block. None changes while it runs. -/
structure Config where
  /-- `IDX_W` (R7). -/
  idxW : Nat
  /-- `STORAGE_BYTES` (R9). -/
  storageBytes : Nat
  /-- `ASSERT_MODE` (R11). -/
  assertMode : AssertMode
  /-- `CURSOR_VIEW` (R12). -/
  cursorView : CursorView
  /-- The one agent that drives port P (R60, R243). -/
  producer : Nat
  /-- The one agent that drives port C. -/
  consumer : Nat
  /-- The one agent that drives port H; it may be the producer or the consumer too (R243, R272). -/
  host : Nat
  deriving DecidableEq, Repr

/-- The agent of a port (R243). -/
def Config.agentOf (c : Config) : Port → Nat
  | .producer => c.producer
  | .consumer => c.consumer
  | .host => c.host

/-- The largest capacity request the block accepts, `CAP_MAX = 2^IDX_W - 1` (R7). -/
def Config.capMax (c : Config) : Nat := 2 ^ c.idxW - 1

/-- The configuration of the machine the model resets to: `IDX_W`, `ASSERT_MODE` and `CURSOR_VIEW` at the spec's defaults
(R7, R11, R12), the largest legal `STORAGE_BYTES`, one agent per port. DESIGN CHOICE: log entries 2 and 9. -/
def Config.standard : Config :=
  { idxW := 15, storageBytes := 32767, assertMode := .degrade, cursorView := .fresh, producer := 0, consumer := 1, host := 2 }

/-- FREE VALUE: the byte that the `n`-th read of a never-written cell returns (R53, V9). -/
opaque Config.freeByte (n : Nat) : Byte

/-- FREE VALUE: which of the cursor values still visible a stale sample sees (R71); used modulo their number. -/
opaque Config.freeView (n : Nat) : Nat

/-- FREE VALUE: at which port the search for a port with an enabled step starts where the environment's schedule says
nothing (R67); used modulo 3. -/
opaque Config.freePort (n : Nat) : Nat

end Sys2Proof
end

