-- ==== Sys2Proof/WellFormed.lean ====
section
/-! DEFINITION. What well-formed means here. An `Instr` has exactly the fields its word has, so each one is well formed
by its type; what can be ill formed is a command, by the port that presents it (R92) or by its payload (R97), and a
configuration (R7, R9). -/

namespace Sys2Proof

/-- Which port accepts which instruction (R92). -/
def accepts : Port → Instr → Bool
  | .host, .init _ => true
  | .host, .reset => true
  | .host, .create _ => true
  | .host, .destroy => true
  | .producer, .put _ => true
  | .producer, .putForce _ => true
  | .producer, .putchar _ => true
  | .producer, .putcharForce _ => true
  | .consumer, .get _ => true
  | .consumer, .getchar => true
  | .consumer, .peek => true
  | .consumer, .rdmem _ => true
  | _, .status => true
  | _, .dataLen => true
  | _, .freeLen => true
  | _, _ => false

/-- How many payload bytes a command of this instruction carries (R97): `ARG` for `PUT` and `PUT_FORCE`, else none. -/
def payloadLen : Instr → Nat
  | .put len => len.toNat
  | .putForce len => len.toNat
  | _ => 0

/-- A command of instruction `i` with payload `d`, presented at port `p`, is well formed: the port accepts it (R92) and
the payload has the length the command says (R97). -/
def wellFormed (p : Port) (i : Instr) (d : List Byte) : Bool :=
  accepts p i && (d.length == payloadLen i)

/-- A legal configuration: `IDX_W` in 3 to 15 (R7) and `STORAGE_BYTES` in 0 to `CAP_MAX` (R9). -/
def Config.valid (c : Config) : Bool :=
  decide (3 ≤ c.idxW) && decide (c.idxW ≤ 15) && decide (c.storageBytes ≤ c.capMax)

end Sys2Proof
end

