-- ==== Sys2Proof/Decode.lean ====
section
/-! DEFINITION. The command word: its fields (R94), the decoder, total on every word and port and rejecting by name
(R98, R102, R104), and the encoder written from the same table (R98). -/

namespace Sys2Proof

/-- Why a word is illegal (R102, in the order R104 tests). -/
inductive Illegal where
  /-- `RSV ≠ 0000`. -/
  | reservedField
  /-- `OPC = 0000`: no row. -/
  | noOpcode
  /-- `ARG ≠ 0` in a format N or B word. -/
  | unusedArg
  /-- `BYTE ≠ 0` in a format N or A word. -/
  | unusedByte
  /-- The port does not accept the opcode (R92). -/
  | wrongPort
  deriving DecidableEq, Repr

/-- What decoding answers: an instruction, or the reason the word is illegal. -/
inductive Decoded where
  | ok (i : Instr)
  | illegal (why : Illegal)
  deriving DecidableEq, Repr

/-- `OPC`, bits 31:28 (R94). -/
def fieldOpc (w : CmdWord) : BitVec 4 := w.extractLsb' 28 4

/-- `RSV`, bits 27:24 (R94). -/
def fieldRsv (w : CmdWord) : BitVec 4 := w.extractLsb' 24 4

/-- `ARG`, bits 23:8 (R94). -/
def fieldArg (w : CmdWord) : Half := w.extractLsb' 8 16

/-- `BYTE`, bits 7:0 (R94). -/
def fieldByte (w : CmdWord) : Byte := w.extractLsb' 0 8

/-- A format N word: both operand fields must be 0 (R95). -/
def formatN (i : Instr) (arg : Half) (byte : Byte) : Decoded :=
  if arg ≠ 0 then .illegal .unusedArg else if byte ≠ 0 then .illegal .unusedByte else .ok i

/-- A format A word: `BYTE` must be 0 and `ARG` is the operand (R95). -/
def formatA (i : Half → Instr) (arg : Half) (byte : Byte) : Decoded :=
  if byte ≠ 0 then .illegal .unusedByte else .ok (i arg)

/-- A format B word: `ARG` must be 0 and `BYTE` is the operand (R95). -/
def formatB (i : Byte → Instr) (arg : Half) (byte : Byte) : Decoded :=
  if arg ≠ 0 then .illegal .unusedArg else .ok (i byte)

/-- The rows of R98, by opcode. -/
def decodeRow (opc : Nat) (arg : Half) (byte : Byte) : Decoded :=
  match opc with
  | 1 => formatA .init arg byte
  | 2 => formatN .reset arg byte
  | 3 => formatA .create arg byte
  | 4 => formatN .destroy arg byte
  | 5 => formatN .status arg byte
  | 6 => formatN .dataLen arg byte
  | 7 => formatN .freeLen arg byte
  | 8 => formatA .put arg byte
  | 9 => formatA .putForce arg byte
  | 10 => formatB .putchar arg byte
  | 11 => formatB .putcharForce arg byte
  | 12 => formatA .get arg byte
  | 13 => formatN .getchar arg byte
  | 14 => formatN .peek arg byte
  | 15 => formatA .rdmem arg byte
  | _ => .illegal .noOpcode

/-- The word part of R104: every test but the port's. -/
def decodeWord (w : CmdWord) : Decoded :=
  if fieldRsv w ≠ 0 then .illegal .reservedField
  else decodeRow (fieldOpc w).toNat (fieldArg w) (fieldByte w)

/-- The decoder of R104, total on all words and ports. -/
def decode (p : Port) (w : CmdWord) : Decoded :=
  match decodeWord w with
  | .ok i => if accepts p i then .ok i else .illegal .wrongPort
  | .illegal why => .illegal why

/-- A command word from its fields, `RSV` being `0000` (R94). -/
def assemble (opc : BitVec 4) (arg : Half) (byte : Byte) : CmdWord :=
  opc ++ ((0#4) ++ (arg ++ byte))

/-- `OPC` of an instruction (R98). -/
def opcode : Instr → BitVec 4
  | .init _ => 1
  | .reset => 2
  | .create _ => 3
  | .destroy => 4
  | .status => 5
  | .dataLen => 6
  | .freeLen => 7
  | .put _ => 8
  | .putForce _ => 9
  | .putchar _ => 10
  | .putcharForce _ => 11
  | .get _ => 12
  | .getchar => 13
  | .peek => 14
  | .rdmem _ => 15

/-- `ARG` of an instruction: 0 where its format has none (R95). -/
def argOf : Instr → Half
  | .init a => a
  | .create a => a
  | .put a => a
  | .putForce a => a
  | .get a => a
  | .rdmem a => a
  | _ => 0

/-- `BYTE` of an instruction: 0 where its format has none (R95). -/
def byteOf : Instr → Byte
  | .putchar b => b
  | .putcharForce b => b
  | _ => 0

/-- The command word of an instruction (R94, R98). -/
def encode (i : Instr) : CmdWord := assemble (opcode i) (argOf i) (byteOf i)

/-- The opcodes whose commands carry a payload of `ARG` bytes, `PUT` and `PUT_FORCE` (R97). -/
def carriesPayload (w : CmdWord) : Bool := (fieldOpc w == 8) || (fieldOpc w == 9)

/-- The port R92 gives an opcode, the first one its row lists. -/
def homePort (w : CmdWord) : Port :=
  match (fieldOpc w).toNat with
  | 1 => .host
  | 2 => .host
  | 3 => .host
  | 4 => .host
  | 12 => .consumer
  | 13 => .consumer
  | 14 => .consumer
  | 15 => .consumer
  | _ => .producer

/-- The 32-bit word whose low `nbits` bits are those of `w`, all higher bits 0. -/
def tableWord (nbits w : Nat) : CmdWord := BitVec.ofNat 32 (w % 2 ^ nbits)

/-- What the decoder reads from a word numbered as the opcode table numbers it. -/
def decodeTableWord (nbits w : Nat) : Option Instr :=
  match decode (homePort (tableWord nbits w)) (tableWord nbits w) with
  | .ok i => some i
  | .illegal _ => none

end Sys2Proof
end

