-- ==== Sys2Proof/Machine/State.lean ====
section
/-! DEFINITION. The state of the block (R20, R28), what it records and why it stops (R230), and the state after
power-on reset (R40, R260). Plain data throughout. -/

namespace Sys2Proof.Machine

/-- A cursor (R23, R24, R25): the lap bit and the storage index, read and written whole. -/
structure Cursor where
  lap : Bool
  idx : Idx
  deriving DecidableEq, Repr

/-- The cursor register of R25: the lap in bit 15, the index in bits 14 to 0. -/
def Cursor.word (c : Cursor) : BitVec 16 := BitVec.ofBool c.lap ++ c.idx

/-- The storage (R20, R50): the cells written since power-on reset, by rising index. A cell that is not listed was
never written and holds no defined value (R53). -/
abbrev Memory := List Host.Cell

/-- The canonical form: cell indices strictly rising, so that equal storages are equal lists. -/
abbrev Memory.wf (m : Memory) : Prop := m.Pairwise (fun a b => a.1 < b.1)

/-- What one `SAMPLE` sees of the registers (R63), `inited` being read beside it. -/
structure Snapshot where
  cap : Idx
  wc : Cursor
  rc : Cursor
  deriving DecidableEq, Repr

/-- The plan of an operation in flight (R28), computed at its `SAMPLE`. -/
structure Plan where
  /-- The snapshot `(wc_s, rc_s, cap_s)`. -/
  snap : Snapshot
  /-- The effective length (R59). -/
  n : Nat
  /-- Payload bytes dropped at the front (R173). -/
  skip : Nat
  /-- This force write overwrites unread bytes (R175). -/
  ovw : Bool
  /-- The cursor the transfer starts from. -/
  base : Cursor
  /-- The write cursor to commit, if the operation has one. -/
  newWc : Option Cursor
  /-- The read cursor to commit, if the operation has one. -/
  newRc : Option Cursor
  deriving DecidableEq, Repr

/-- An operation in flight on a port (R28): `op`, `plan`, the payload `D`, the count `k` of `XFER` steps done, and the
bytes `out` read so far. -/
structure Flight where
  op : Instr
  plan : Plan
  data : List Byte
  k : Nat
  out : List Byte
  deriving DecidableEq, Repr

/-- One port: the commands its agent has still to present, oldest first; the operation in flight (`busy` of R28 is
`flight.isSome`, and a port that is not busy holds nothing else); the responses given so far, oldest first. -/
structure PortState where
  pending : List Command
  flight : Option Flight
  responses : List Response
  deriving DecidableEq, Repr

/-- What the environment lets happen next: a step of a port (R67), or a power-on reset (R260). -/
inductive Event where
  | port (p : Port)
  | powerOn
  deriving DecidableEq, Repr

/-- The model-level faults F1 to F4 of R230, as `State.faults` records them. Recording one does not stop the run (R226):
a violation degrades to its no-op, a race goes on with the steps as written, and `State.faults` tells that the state
carries no guarantee. -/
inductive RecordedFault where
  /-- F1, rules R227 and R228, only under `ASSERT_MODE = assert`: the instruction with its operand, and `(inited, cap)`. -/
  | preconditionViolated (op : Instr) (inited : Bool) (cap : Idx)
  /-- F2, rule R229, only under `assert`: the port and the word. -/
  | illegalCommand (port : Port) (word : CmdWord)
  /-- F3, rule R270: the two operations, the one that started second last. -/
  | raceForce (first second : Instr)
  /-- F4, rule R271: the lifecycle operation, and the busy ports with their operations. -/
  | raceLifecycle (op : Instr) (busy : List (Port × Instr))
  deriving DecidableEq, Repr

/-- Why the machine stops with a fault. Both are safe: the model stops where the spec gives no cell or no byte, and only
in states no run reaches. -/
inductive Fault where
  /-- Raised by the storage access of an `XFER` step and of `RDMEM`: the cell is at or above `STORAGE_BYTES`, so it does
  not exist (R50). Safe. -/
  | noSuchCell (cell : Nat)
  /-- Raised by the `XFER` step of a write: the latched payload has no byte at that position (R97 rules it out at the
  `SAMPLE`). Safe. -/
  | noPayloadByte (position : Nat)
  deriving DecidableEq, Repr

/-- Why a command is given no meaning at all (R17, R230): the whole run is refused. All are safe. -/
inductive Refusal where
  /-- Raised by `exec` for an instruction without a meaning; no arm does so. Safe. -/
  | notModelled (mnemonic : String)
  /-- X1, raised where a command is accepted: its payload has not the length it says (R97). Safe. -/
  | malformedPayload (port : Port) (word : CmdWord) (length : Nat)
  /-- X2, raised where a second agent presents a command at a port (R243), which also is the only way a command can reach
  a busy port (R61). Safe. -/
  | extraAgent (port : Port)
  deriving DecidableEq, Repr

/-- The whole machine. -/
structure State where
  /-- The parameters, fixed for the machine (R7 to R12, R243). -/
  cfg : Config
  /-- R21. -/
  inited : Bool
  /-- R22. -/
  cap : Idx
  /-- The write cursor (R23). -/
  wc : Cursor
  /-- The read cursor (R24). -/
  rc : Cursor
  /-- The storage (R20, R50). -/
  mem : Memory
  /-- Port P (R28, R90). -/
  portP : PortState
  /-- Port C (R28, R90). -/
  portC : PortState
  /-- Port H (R28, R90). -/
  portH : PortState
  /-- The model-level faults recorded so far (R226): a set, held without repeats in the order of recording. -/
  faults : List RecordedFault
  /-- Under `monotone_stale`: the values `wc` had before its present one that port C may still see, oldest first (R71). -/
  staleWc : List Cursor
  /-- Under `monotone_stale`: the values `rc` had before its present one that port P may still see, oldest first (R71). -/
  staleRc : List Cursor
  /-- The port whose step is being taken (R67). -/
  turn : Port
  /-- What the environment schedules next (R29, R67). -/
  sched : List Event
  /-- How many free values have been drawn. -/
  draws : Nat
  deriving DecidableEq, Repr

/-- The cursor (lap 0, index 0). -/
def Cursor.zero : Cursor := { lap := false, idx := 0 }

/-- An idle port with nothing presented and nothing answered. -/
def PortState.quiet : PortState := { pending := [], flight := none, responses := [] }

/-- The machine right after power-on reset (R40, R260), with nothing presented at any port. The fields `turn`, `sched`,
`draws`, `pending`, `responses` are the model's own: DESIGN CHOICE, log entry 18. -/
def State.reset : State :=
  { cfg := Config.standard
    inited := false
    cap := 0
    wc := Cursor.zero
    rc := Cursor.zero
    mem := []
    portP := PortState.quiet
    portC := PortState.quiet
    portH := PortState.quiet
    faults := []
    staleWc := []
    staleRc := []
    turn := .host
    sched := []
    draws := 0 }

end Sys2Proof.Machine
end

