-- ==== Sys2Proof/Machine/Flags.lean ====
section
/-! DEFINITION. The `lap_bit_comparator`: the three derived functions of two cursors and the capacity (R30 to R33), and
the status code (R99). Total, also on cursor pairs no run reaches (R155). -/

namespace Sys2Proof.Machine

/-- `status(w, r)` (R30). -/
def status (w r : Cursor) : Status :=
  if w.idx = r.idx then (if w.lap = r.lap then .empty else .full) else .halfFull

/-- `data_len(w, r, cap)` (R31). -/
def dataLen (w r : Cursor) (cap : Nat) : Nat :=
  match status w r with
  | .empty => 0
  | .full => cap
  | .halfFull =>
    if r.idx.toNat < w.idx.toNat then w.idx.toNat - r.idx.toNat else cap - (r.idx.toNat - w.idx.toNat)

/-- `free_len(w, r, cap) = cap - data_len(w, r, cap)` (R32). -/
def freeLen (w r : Cursor) (cap : Nat) : Nat := cap - dataLen w r cap

/-- The status code of R99. -/
def statusCode : Status → Half
  | .empty => 0
  | .full => 1
  | .halfFull => 2

end Sys2Proof.Machine
end

