-- ==== Sys2Proof/Machine/Operands.lean ====
section
/-! DEFINITION. The `wraparound_multiplexer`: the cell at an offset from a cursor (R54), the advance of a cursor (R55),
the two runs of a transfer (R56, R57), the alignment of a requested capacity (R10), and the effective lengths (R59).
Arithmetic is on naturals, as R15 allows; only a cursor's index is narrowed back to its register. -/

namespace Sys2Proof.Machine

/-- `align_down(x, 4) = x - (x mod 4)` (R10). -/
def alignDown (x : Nat) : Nat := x - x % 4

/-- `addr(c, i, cap)`, the cell at offset `i` from cursor `c` (R54). The lap plays no part. -/
def addr (c : Cursor) (i cap : Nat) : Nat :=
  if cap ≤ c.idx.toNat + i then c.idx.toNat + i - cap else c.idx.toNat + i

/-- `adv(c, n, cap)`, the cursor advanced by `n` bytes: the lap flips exactly when the end of storage is reached or
passed (R55, conflict C6). -/
def adv (c : Cursor) (n cap : Nat) : Cursor :=
  if cap ≤ c.idx.toNat + n then { lap := !c.lap, idx := BitVec.ofNat 15 (c.idx.toNat + n - cap) }
  else { lap := c.lap, idx := BitVec.ofNat 15 (c.idx.toNat + n) }

/-- `run1(c, n, cap)`: the bytes from the cursor's cell up to at most the last cell (R56). -/
def run1 (c : Cursor) (n cap : Nat) : Nat := min n (cap - c.idx.toNat)

/-- `run2(c, n, cap)`: the bytes from cell 0 upward (R56). -/
def run2 (c : Cursor) (n cap : Nat) : Nat := n - run1 c n cap

/-- `contig(r, d, cap)`, the contiguous run of `PEEK` (R57). -/
def contig (r : Cursor) (d cap : Nat) : Nat := run1 r d cap

/-- The read cursor an overwriting force write commits: the new write index with the opposite lap (R176). -/
def forcedRead (w' : Cursor) : Cursor := { lap := !w'.lap, idx := w'.idx }

/-- The effective length of `PUT` (R59, R167). -/
def putCount (len : Half) (s : Snapshot) : Nat := min len.toNat (freeLen s.wc s.rc s.cap.toNat)

/-- The effective length of `PUT_FORCE` (R59, R173). -/
def putForceCount (len : Half) (s : Snapshot) : Nat := min len.toNat s.cap.toNat

/-- The effective length of `PUTCHAR` (R206). -/
def putcharCount (s : Snapshot) : Nat := if status s.wc s.rc = .full then 0 else 1

/-- The effective length of `GET` (R59, R187). -/
def getCount (len : Half) (s : Snapshot) : Nat := min len.toNat (dataLen s.wc s.rc s.cap.toNat)

/-- The effective length of `GETCHAR` (R210). -/
def getcharCount (s : Snapshot) : Nat := if status s.wc s.rc = .empty then 0 else 1

/-- The effective length of `PEEK` (R57, R193). -/
def peekCount (s : Snapshot) : Nat := contig s.rc (dataLen s.wc s.rc s.cap.toNat) s.cap.toNat

end Sys2Proof.Machine
end

