-- ==== Sys2Proof/Machine/Ops.lean ====
section
/-! DEFINITION. The named operations over the storage, the registers and the ports, from which every instruction is
built: storage access (R51 to R53), responses (R100, R101), recording a fault (R226; the block takes no exception, R225),
what a sample sees (R63, R70, R71), accepting a command (R61, R97, R231), and the three phases (R62 to R65). -/

namespace Sys2Proof.Machine

/-- What one step of an instruction answers. -/
abbrev Result := Host.Outcome State Fault Refusal

/-! ### Storage -/

/-- The byte last written to cell `i`; none where the cell was never written (R51, R53). -/
def Memory.read? : Memory → Nat → Option Byte
  | [], _ => none
  | (a, b) :: m, i => if a = i then some b else Memory.read? m i

/-- Store `v` in cell `i`, keeping the cells in rising order (R52). -/
def Memory.write : Memory → Nat → Byte → Memory
  | [], i, v => [(i, v)]
  | (a, b) :: m, i, v =>
    if i < a then (i, v) :: (a, b) :: m
    else if a = i then (i, v) :: m
    else (a, b) :: Memory.write m i v

/-- The byte a read of cell `i` returns: a free value, fresh at each read, where the cell was never written (R53). -/
def State.byteAt (s : State) (i : Nat) : Byte :=
  match Memory.read? s.mem i with
  | some b => b
  | none => Config.freeByte s.draws

/-- How many free values the read of cell `i` draws. -/
def State.drawsAt (s : State) (i : Nat) : Nat :=
  match Memory.read? s.mem i with
  | some _ => 0
  | none => 1

/-- The state after reading cell `i`: nothing changes but the count of draws (R51). -/
def State.afterRead (s : State) (i : Nat) : State := { s with draws := s.draws + s.drawsAt i }

/-- `MemWrite(i, 1, v)` (R52). -/
def State.storeByte (s : State) (i : Nat) (v : Byte) : State := { s with mem := Memory.write s.mem i v }

/-! ### Ports -/

/-- The latches and channels of a port. -/
def State.port (s : State) : Port → PortState
  | .producer => s.portP
  | .consumer => s.portC
  | .host => s.portH

/-- Replace one port's latches and channels. -/
def State.setPort (s : State) (p : Port) (x : PortState) : State :=
  { s with
    portP := if p = .producer then x else s.portP
    portC := if p = .consumer then x else s.portC
    portH := if p = .host then x else s.portH }

/-- The latch `busy` (R28). -/
def State.busy (s : State) (p : Port) : Bool := (s.port p).flight.isSome

/-- Set or clear the operation in flight on a port. -/
def State.setFlight (s : State) (p : Port) (f : Option Flight) : State :=
  s.setPort p { s.port p with flight := f }

/-- Give a port one response (R90, R100). -/
def State.respond (s : State) (p : Port) (r : Response) : State :=
  s.setPort p { s.port p with responses := (s.port p).responses ++ [r] }

/-- The command presented at a port leaves the channel: the port has accepted it (R61). -/
def State.accept (s : State) (p : Port) : State :=
  s.setPort p { s.port p with pending := (s.port p).pending.tail }

/-- The payload of the command presented at a port (R91); empty where none is presented. -/
def State.presented (s : State) (p : Port) : List Byte :=
  match (s.port p).pending with
  | [] => []
  | c :: _ => c.payload

/-- The port whose step is being taken. -/
def State.setTurn (s : State) (p : Port) : State := { s with turn := p }

/-- A response with a count or value in `R0` and nothing else (R101). -/
def Response.value (v : Half) : Response := { r0 := v, r1 := 0, payload := [] }

/-- The all-zero response word with no payload (R101, R228, R229). -/
def Response.zero : Response := Response.value 0

/-! ### Recording faults -/

/-- `raise f` (R226): add `f` to the set of recorded faults. Nothing but a power-on reset removes one. -/
def State.raise (s : State) (f : RecordedFault) : State :=
  { s with faults := if f ∈ s.faults then s.faults else s.faults ++ [f] }

/-- Record the hazard, if the check found one (R231 (3)). -/
def State.raiseIf (s : State) : Option RecordedFault → State
  | none => s
  | some f => s.raise f

/-- `raise f` only under `ASSERT_MODE = assert` (R227). -/
def State.raiseAsserting (s : State) (f : RecordedFault) : State :=
  match s.cfg.assertMode with
  | .degrade => s
  | .assert => s.raise f

/-- A precondition violation by instruction `i` (R227), unless this command has already recorded a race: one command
records at most one fault (R231). -/
def State.violated (s : State) (race : Option RecordedFault) (i : Instr) : State :=
  match race with
  | none => s.raiseAsserting (.preconditionViolated i s.inited s.cap)
  | some _ => s

/-! ### Hazards -/

/-- The consumer operations that move a cursor (R270). -/
def movesReadCursor : Instr → Bool
  | .get _ => true
  | .getchar => true
  | .peek => true
  | _ => false

/-- The two force writes (R270). -/
def isForceWrite : Instr → Bool
  | .putForce _ => true
  | .putcharForce _ => true
  | _ => false

/-- No hazard rule binds the operation. -/
def noRace (_ : Instr) (_ : State) : Option RecordedFault := none

/-- `RaceForce` at the `SAMPLE` of operation `i`: the other port has in flight an operation that `bars` says may not
overlap it. It does not apply in the UNINIT state (R270). -/
def raceAgainst (other : Port) (bars : Instr → Bool) (i : Instr) (s : State) : Option RecordedFault :=
  if s.inited then
    match (s.port other).flight with
    | some f => if bars f.op then some (.raceForce f.op i) else none
    | none => none
  else none

/-- The check of R270 at the `SAMPLE` of a force write on P. -/
def forceWriteRace (i : Instr) (s : State) : Option RecordedFault := raceAgainst .consumer movesReadCursor i s

/-- The check of R270 at the `SAMPLE` of `GET`, `GETCHAR` or `PEEK` on C. -/
def readRace (i : Instr) (s : State) : Option RecordedFault := raceAgainst .producer isForceWrite i s

/-- The operation in flight on a port, with the port, as a list of at most one. -/
def State.busyWith (s : State) (p : Port) : List (Port × Instr) :=
  match (s.port p).flight with
  | some f => [(p, f.op)]
  | none => []

/-- The check of R271 at the one step of a lifecycle operation. -/
def lifecycleRace (i : Instr) (s : State) : Option RecordedFault :=
  match s.busyWith .producer ++ s.busyWith .consumer with
  | [] => none
  | b :: bs => some (.raceLifecycle i (b :: bs))

/-! ### What a sample sees -/

/-- Whether a sample on port `p` may see a past value of the other side's cursor: not under `fresh` (R70), not where `now`
says that it always sees the present (the force writes, R71; the queries, log entry 11), and never on port H (R71). -/
def State.mayBeStale (s : State) (p : Port) (now : Bool) : Bool :=
  decide (s.cfg.cursorView = .monotoneStale) && !now && decide (p ≠ .host)

/-- Which of the values still visible is seen, `older` of them being past: one of `0 .. older`, a free value. -/
def State.viewChoice (s : State) (older : Nat) : Nat := Config.freeView s.draws % (older + 1)

/-- The value of a cursor seen: one of its past values still visible, or its present one. -/
def seenCursor (past : List Cursor) (present : Cursor) (choice : Nat) : Cursor := past.getD choice present

/-- The snapshot of R63: `cap` and the port's own cursor are always the committed ones; the other side's cursor is the
committed one under `fresh` (R70) and any value of the window under `monotone_stale` (R71). -/
def State.snapshot (s : State) (p : Port) (now : Bool) : Snapshot :=
  if s.mayBeStale p now then
    match p with
    | .producer => { cap := s.cap, wc := s.wc, rc := seenCursor s.staleRc s.rc (s.viewChoice s.staleRc.length) }
    | .consumer => { cap := s.cap, wc := seenCursor s.staleWc s.wc (s.viewChoice s.staleWc.length), rc := s.rc }
    | .host => { cap := s.cap, wc := s.wc, rc := s.rc }
  else { cap := s.cap, wc := s.wc, rc := s.rc }

/-- The state after a sample: the window of port `p` now opens at the instant it saw (R71). A fresh sample saw the
present, so nothing older stays visible. -/
def State.sampled (s : State) (p : Port) (now : Bool) : State :=
  { s with
    staleRc :=
      if p = .producer then
        (if s.mayBeStale p now then s.staleRc.drop (s.viewChoice s.staleRc.length) else [])
      else s.staleRc
    staleWc :=
      if p = .consumer then
        (if s.mayBeStale p now then s.staleWc.drop (s.viewChoice s.staleWc.length) else [])
      else s.staleWc
    draws := if s.mayBeStale p now then s.draws + 1 else s.draws }

/-- The past values of a cursor that stay visible when it goes from `old` to `new` (R71): under `monotone_stale` the old
value joins them, if it differs. Under `fresh` none is kept. -/
def remember (view : CursorView) (past : List Cursor) (old new : Cursor) : List Cursor :=
  match view with
  | .fresh => past
  | .monotoneStale => if old = new then past else past ++ [old]

/-! ### Accepting a command, and the phases -/

/-- Accept the command presented at port `p` for instruction `i` and go on with its payload. A port accepts a command
only when it is idle (R61): one that reaches a busy port is a second agent's (R243). That test comes before
the payload's (log entry 25: R231 gives `ExtraAgent` no rank), and the payload's before all others (R231 (1)). -/
def accepting (p : Port) (i : Instr) (s : State) (run : List Byte → State → Result) : Result :=
  if s.busy p then .refused (.extraAgent p)
  else if (s.presented p).length = payloadLen i then run (s.presented p) (s.accept p)
  else .refused (.malformedPayload p (encode i) (s.presented p).length)

/-- An operation in three phases (R62): if it is in flight on its port it takes its next `XFER` (R64), or its `COMMIT`
when all are done (R65); if the port is idle its command is accepted and it takes its `SAMPLE` (R63). -/
def phased (p : Port) (i : Instr) (sample : List Byte → State → Result) (xfer commit : Flight → State → Result)
    (s : State) : Result :=
  match (s.port p).flight with
  | some f =>
    if f.op = i then (if f.k < f.plan.n then xfer f s else commit f s) else .refused (.extraAgent p)
  | none => accepting p i s sample

/-- `SAMPLE` (R63): check the hazard, then UNINIT (R228), then latch the plan. `data` is the bytes the operation will
store. -/
def sample (p : Port) (i : Instr) (race : Instr → State → Option RecordedFault) (now : Bool)
    (plan : Snapshot → Plan) (data : List Byte) (s : State) : Result :=
  if s.inited then
    .next (((s.raiseIf (race i s)).sampled p now).setFlight p
      (some { op := i, plan := plan (s.snapshot p now), data := data, k := 0, out := [] }))
  else .next (((s.raiseIf (race i s)).violated (race i s) i).respond p Response.zero)

/-- The cell the next `XFER` step of a flight accesses (R64). -/
def Flight.cell (f : Flight) : Nat := addr f.plan.base f.k f.plan.snap.cap.toNat

/-- `XFER k` of a write operation: `MemWrite(addr(b, k, cap_s), 1, D[skip + k])` (R64). -/
def storeXfer (p : Port) (f : Flight) (s : State) : Result :=
  if f.cell < s.cfg.storageBytes then
    match f.data[f.plan.skip + f.k]? with
    | some v => .next ((s.storeByte f.cell v).setFlight p (some { f with k := f.k + 1 }))
    | none => .fault (.noPayloadByte (f.plan.skip + f.k))
  else .fault (.noSuchCell f.cell)

/-- `XFER k` of a read operation: `out[k] <- MemRead(addr(b, k, cap_s), 1)` (R64). -/
def loadXfer (p : Port) (f : Flight) (s : State) : Result :=
  if f.cell < s.cfg.storageBytes then
    .next ((s.afterRead f.cell).setFlight p (some { f with k := f.k + 1, out := f.out ++ [s.byteAt f.cell] }))
  else .fault (.noSuchCell f.cell)

/-- The registers a `COMMIT` writes (R65, R176): the cursors the plan holds. An overwriting force write closes both windows
of past values (R71). -/
def State.commitCursors (s : State) (plan : Plan) : State :=
  { s with
    wc := plan.newWc.getD s.wc
    rc := plan.newRc.getD s.rc
    staleWc := if plan.ovw then [] else remember s.cfg.cursorView s.staleWc s.wc (plan.newWc.getD s.wc)
    staleRc := if plan.ovw then [] else remember s.cfg.cursorView s.staleRc s.rc (plan.newRc.getD s.rc) }

/-- `COMMIT` (R65): the cursors of the plan are written, the port becomes idle and the response is given, all in one
step. -/
def commit (p : Port) (answer : Flight → Response) (f : Flight) (s : State) : Result :=
  .next (((s.commitCursors f.plan).setFlight p none).respond p (answer f))

/-- The response of an operation that returns its count and nothing else (R101). -/
def countResponse (f : Flight) : Response := Response.value (BitVec.ofNat 16 f.plan.n)

/-- The registers as a lifecycle operation writes them: both cursors (0, 0), no past value visible (R40, R71). -/
def State.bound (s : State) (inited : Bool) (cap : Idx) : State :=
  { s with inited := inited, cap := cap, wc := Cursor.zero, rc := Cursor.zero, staleWc := [], staleRc := [] }

/-- Power-on reset (R260): UNINIT, no cell written, every port idle with its operation discarded, no fault recorded.
The commands the agents have still to present, and what was already answered, are outside the block. -/
def State.powerOn (s : State) : State :=
  { s.bound false 0 with
    mem := []
    faults := []
    portP := { s.portP with flight := none }
    portC := { s.portC with flight := none }
    portH := { s.portH with flight := none } }

end Sys2Proof.Machine
end

