-- ==== Sys2Proof/Machine/Lifecycle.lean ====
section
/-! DEFINITION. The lifecycle operations `INIT`, `CREATE`, `DESTROY`, `RESET` of port H, each one atomic step (R130 to
R145). -/

namespace Sys2Proof.Machine

/-- The four conditions under which `INIT` fails (R131). -/
def initFails (c : Config) (capReq : Half) : Bool :=
  decide (capReq.toNat = 0) || decide (alignDown capReq.toNat = 0) || decide (c.capMax < capReq.toNat) ||
    decide (c.storageBytes < capReq.toNat)

/-- The capacity a successful `INIT` sets (R132). -/
def boundCap (capReq : Half) : Idx := BitVec.ofNat 15 (alignDown capReq.toNat)

/-- Bind the storage: the one step of R130, for the instruction `i` that asks for it. -/
def bindStorage (i : Instr) (capReq : Half) (s : State) : Result :=
  accepting .host i s fun _ t =>
    if initFails t.cfg capReq then
      .next (((t.raiseIf (lifecycleRace i t)).violated (lifecycleRace i t) i).respond .host Response.zero)
    else
      .next (((t.raiseIf (lifecycleRace i t)).bound true (boundCap capReq)).respond .host
        (Response.value (BitVec.ofNat 16 (alignDown capReq.toNat))))

/-- `INIT cap_req` (R130). -/
def execInit (capReq : Half) (s : State) : Result := bindStorage (.init capReq) capReq s

/-- `CREATE cap_req`: the same operation under a second opcode (R136). -/
def execCreate (capReq : Half) (s : State) : Result := bindStorage (.create capReq) capReq s

/-- `DESTROY`: back to UNINIT (R138, R139). -/
def execDestroy (s : State) : Result :=
  accepting .host .destroy s fun _ t =>
    .next (((t.raiseIf (lifecycleRace .destroy t)).bound false 0).respond .host Response.zero)

/-- `RESET`: both cursors to (0, 0) on an initialised block; nothing to do in the UNINIT state (R141, R143). -/
def execReset (s : State) : Result :=
  accepting .host .reset s fun _ t =>
    if t.inited then .next (((t.raiseIf (lifecycleRace .reset t)).bound true t.cap).respond .host Response.zero)
    else .next ((t.raiseIf (lifecycleRace .reset t)).respond .host Response.zero)

end Sys2Proof.Machine
end

