-- ==== Sys2Proof/Machine/Queries.lean ====
section
/-! DEFINITION. The queries `STATUS`, `DATA_LEN`, `FREE_LEN`, one atomic step each, answered at the port that asks
(R150 to R155). -/

namespace Sys2Proof.Machine

/-- The common behaviour of the queries (R150): no register or cell is written; in the UNINIT state the answer is 0 (R228),
else it is a function of the committed registers, read at one instant, under either view: a query has no `SAMPLE` (R62), and
`DATA_LEN` and `FREE_LEN` sum to `cap` in every reachable state (R154). Its port has then seen the present, so that its next
`SAMPLE` sees nothing older (R274). DEDUCED: log entry 11. -/
def query (i : Instr) (answer : Snapshot → Half) (s : State) : Result :=
  accepting s.turn i s fun _ t =>
    if t.inited then
      .next ((t.sampled t.turn true).respond t.turn (Response.value (answer (t.snapshot t.turn true))))
    else .next (t.respond t.turn Response.zero)

/-- `STATUS` (R151). -/
def execStatus (s : State) : Result := query .status (fun v => statusCode (status v.wc v.rc)) s

/-- `DATA_LEN` (R152). -/
def execDataLen (s : State) : Result :=
  query .dataLen (fun v => BitVec.ofNat 16 (dataLen v.wc v.rc v.cap.toNat)) s

/-- `FREE_LEN` (R153). -/
def execFreeLen (s : State) : Result :=
  query .freeLen (fun v => BitVec.ofNat 16 (freeLen v.wc v.rc v.cap.toNat)) s

end Sys2Proof.Machine
end

