-- ==== Sys2Proof/Machine/BulkRead.lean ====
section
/-! DEFINITION. The bulk reads `GET` and `PEEK` and the direct read `RDMEM` of port C (R185 to R202). -/

namespace Sys2Proof.Machine

/-- The plan of a read of `n` bytes (R185): from the read cursor, advancing it. -/
def readPlan (n : Nat) (v : Snapshot) : Plan :=
  { snap := v, n := n, skip := 0, ovw := false, base := v.rc
    newWc := none, newRc := some (adv v.rc n v.cap.toNat) }

/-- The response of `GET`: the count and the bytes read, first-out first (R101, R186). -/
def getResponse (f : Flight) : Response := { r0 := BitVec.ofNat 16 f.plan.n, r1 := 0, payload := f.out }

/-- The response of `PEEK`: the length and the start index, both 0 when the buffer is empty (R191, R192, R195). -/
def peekResponse (f : Flight) : Response :=
  if f.plan.n = 0 then Response.zero
  else { r0 := BitVec.ofNat 16 f.plan.n, r1 := f.plan.base.idx.setWidth 16, payload := [] }

/-- `GET len` (R186). -/
def execGet (len : Half) (s : State) : Result :=
  phased .consumer (.get len)
    (fun d t => sample .consumer (.get len) readRace false (fun v => readPlan (getCount len v) v) d t)
    (loadXfer .consumer) (commit .consumer getResponse) s

/-- `PEEK` (R191): it moves no byte, so its step after the `SAMPLE` is the `COMMIT` (R62). -/
def execPeek (s : State) : Result :=
  phased .consumer .peek
    (fun d t => sample .consumer .peek readRace false (fun v => readPlan (peekCount v) v) d t)
    (commit .consumer peekResponse) (commit .consumer peekResponse) s

/-- `RDMEM idx` (R198, R199): one cell below `cap`, in one step, with no effect on any cursor or cell. -/
def execRdmem (idx : Half) (s : State) : Result :=
  accepting .consumer (.rdmem idx) s fun _ t =>
    if t.inited ∧ idx.toNat < t.cap.toNat then
      if idx.toNat < t.cfg.storageBytes then
        .next ((t.afterRead idx.toNat).respond .consumer
          { r0 := 1, r1 := (t.byteAt idx.toNat).setWidth 16, payload := [] })
      else .fault (.noSuchCell idx.toNat)
    else .next ((t.violated none (.rdmem idx)).respond .consumer Response.zero)

end Sys2Proof.Machine
end

