-- ==== Sys2Proof/Machine/BulkWrite.lean ====
section
/-! DEFINITION. The bulk writes `PUT` and `PUT_FORCE` of port P (R165 to R182). -/

namespace Sys2Proof.Machine

/-- The plan of a bounded write of `n` bytes (R165, R166): from the write cursor, advancing it. -/
def writePlan (n : Nat) (v : Snapshot) : Plan :=
  { snap := v, n := n, skip := 0, ovw := false, base := v.wc
    newWc := some (adv v.wc n v.cap.toNat), newRc := none }

/-- The plan of a force write of `n` bytes after `skip` dropped ones (R172, R176): when it overwrites, the read cursor
goes to the new write index with the opposite lap. -/
def forcePlan (n skip : Nat) (ovw : Bool) (v : Snapshot) : Plan :=
  { snap := v, n := n, skip := skip, ovw := ovw, base := v.wc
    newWc := some (adv v.wc n v.cap.toNat)
    newRc := if ovw then some (forcedRead (adv v.wc n v.cap.toNat)) else none }

/-- The plan of `PUT len` (R166). -/
def putPlan (len : Half) (v : Snapshot) : Plan := writePlan (putCount len v) v

/-- The plan of `PUT_FORCE len` (R172): it overwrites exactly when `n > free` (R175). -/
def putForcePlan (len : Half) (v : Snapshot) : Plan :=
  forcePlan (putForceCount len v) (len.toNat - putForceCount len v)
    (decide (freeLen v.wc v.rc v.cap.toNat < putForceCount len v)) v

/-- `PUT len, D` (R166). -/
def execPut (len : Half) (s : State) : Result :=
  phased .producer (.put len)
    (fun d t => sample .producer (.put len) noRace false (putPlan len) d t)
    (storeXfer .producer) (commit .producer countResponse) s

/-- `PUT_FORCE len, D` (R172). -/
def execPutForce (len : Half) (s : State) : Result :=
  phased .producer (.putForce len)
    (fun d t => sample .producer (.putForce len) forceWriteRace true (putForcePlan len) d t)
    (storeXfer .producer) (commit .producer countResponse) s

end Sys2Proof.Machine
end

