-- ==== Sys2Proof/Machine/SingleByte.lean ====
section
/-! DEFINITION. The single-byte operations `PUTCHAR` and `PUTCHAR_FORCE` of port P and `GETCHAR` of port C
(R205 to R219). -/

namespace Sys2Proof.Machine

/-- The plan of `PUTCHAR` (R206). -/
def putcharPlan (v : Snapshot) : Plan := writePlan (putcharCount v) v

/-- The plan of `PUTCHAR_FORCE` (R214): one byte, overwriting exactly when the buffer is full. -/
def putcharForcePlan (v : Snapshot) : Plan := forcePlan 1 0 (decide (status v.wc v.rc = .full)) v

/-- The response of `GETCHAR`: the byte in `R1` beside a count of 1, or all zeros (R210, R212). -/
def getcharResponse (f : Flight) : Response :=
  match f.out with
  | [] => Response.zero
  | b :: _ => { r0 := BitVec.ofNat 16 f.plan.n, r1 := b.setWidth 16, payload := [] }

/-- `PUTCHAR b` (R206). -/
def execPutchar (b : Byte) (s : State) : Result :=
  phased .producer (.putchar b)
    (fun _ t => sample .producer (.putchar b) noRace false putcharPlan [b] t)
    (storeXfer .producer) (commit .producer countResponse) s

/-- `PUTCHAR_FORCE b` (R214). -/
def execPutcharForce (b : Byte) (s : State) : Result :=
  phased .producer (.putcharForce b)
    (fun _ t => sample .producer (.putcharForce b) forceWriteRace true putcharForcePlan [b] t)
    (storeXfer .producer) (commit .producer countResponse) s

/-- `GETCHAR` (R210). -/
def execGetchar (s : State) : Result :=
  phased .consumer .getchar
    (fun d t => sample .consumer .getchar readRace false (fun v => readPlan (getcharCount v) v) d t)
    (loadXfer .consumer) (commit .consumer getcharResponse) s

end Sys2Proof.Machine
end

