-- ==== Sys2Proof/Machine/Dispatch.lean ====
section
/-! DEFINITION. `exec`: the next step of one instruction on its port, one arm per row of the opcode table (R98). -/

namespace Sys2Proof.Machine

def exec (i : Instr) (s : State) : Host.Outcome State Fault Refusal :=
  match i with
  | .init capReq => Sys2Proof.Machine.execInit capReq s
  | .reset => Sys2Proof.Machine.execReset s
  | .create capReq => Sys2Proof.Machine.execCreate capReq s
  | .destroy => Sys2Proof.Machine.execDestroy s
  | .status => Sys2Proof.Machine.execStatus s
  | .dataLen => Sys2Proof.Machine.execDataLen s
  | .freeLen => Sys2Proof.Machine.execFreeLen s
  | .put len => Sys2Proof.Machine.execPut len s
  | .putForce len => Sys2Proof.Machine.execPutForce len s
  | .putchar b => Sys2Proof.Machine.execPutchar b s
  | .putcharForce b => Sys2Proof.Machine.execPutcharForce b s
  | .get len => Sys2Proof.Machine.execGet len s
  | .getchar => Sys2Proof.Machine.execGetchar s
  | .peek => Sys2Proof.Machine.execPeek s
  | .rdmem idx => Sys2Proof.Machine.execRdmem idx s

end Sys2Proof.Machine
end

