-- ==== Sys2Proof/Machine/Sequencer.lean ====
section
/-! DEFINITION. Which step comes next: the schedule (R67), the port's sequencer (R28, R61), the command presented at a
port (R91, R104, R229), and the placing of a command for `State.withFetchWord`. -/

namespace Sys2Proof.Machine

/-- What the machine does next: it is settled already, or an instruction takes its next step. -/
inductive Selected where
  | done (o : Result)
  | exec (i : Instr) (s : State)

/-- The agent of port `p` waits for the response of an operation it has in flight on another port (R61, R272). -/
def State.agentWaits (s : State) (p : Port) : Bool :=
  [Port.producer, Port.consumer, Port.host].any fun q =>
    decide (q ≠ p) && decide (s.cfg.agentOf q = s.cfg.agentOf p) && s.busy q

/-- Port `p` has an enabled step (R67): an operation in flight, or a command its agent may present. -/
def State.enabled (s : State) (p : Port) : Bool :=
  s.busy p || (!(s.port p).pending.isEmpty && !s.agentWaits p)

/-- An illegal command at port `p` (R102, R229): a no-op with the all-zero response, recorded under `assert`. Its payload
is ignored, except that a `PUT` or `PUT_FORCE` opcode with the wrong payload length is refused first (R231 (1)). -/
def illegalStep (p : Port) (c : Command) (s : State) : Result :=
  if carriesPayload c.word && decide (c.payload.length ≠ (fieldArg c.word).toNat) then
    .refused (.malformedPayload p c.word c.payload.length)
  else .next (((s.accept p).raiseAsserting (.illegalCommand p c.word)).respond p Response.zero)

/-- The step of port `p`: the operation in flight goes on; else the command presented is decoded (R104); a port with
nothing to do lets the step pass. The agent is tested before everything else about the command: a second agent's is refused
as `ExtraAgent` (R243) whatever its payload and word. DESIGN CHOICE, log entry 25: R231 gives `ExtraAgent` no rank. -/
def fetch (p : Port) (s : State) : Selected :=
  match (s.port p).flight with
  | some f => .exec f.op (s.setTurn p)
  | none =>
    match (s.port p).pending with
    | [] => .done (.next s)
    | c :: _ =>
      if s.agentWaits p then .done (.next s)
      else if c.agent = s.cfg.agentOf p then
        match decode p c.word with
        | .ok i => .exec i (s.setTurn p)
        | .illegal _ => .done (illegalStep p c (s.setTurn p))
      else .done (.refused (.extraAgent p))

/-- The ports in cyclic order, starting at one that the number chooses. -/
def portsFrom (n : Nat) : List Port :=
  match n % 3 with
  | 0 => [.producer, .consumer, .host]
  | 1 => [.consumer, .host, .producer]
  | _ => [.host, .producer, .consumer]

/-- Where the environment's schedule says nothing: some port with an enabled step, a free choice (R67). -/
def State.freeTurn (s : State) : Option Port := (portsFrom (Config.freePort s.draws)).find? fun p => s.enabled p

/-- The next step of the machine. With nothing scheduled and no port enabled the block does nothing (R261). -/
def select (s : State) : Selected :=
  match s.sched with
  | .powerOn :: rest => .done (.next ({ s with sched := rest }).powerOn)
  | .port p :: rest => fetch p { s with sched := rest }
  | [] =>
    match s.freeTurn with
    | none => .done (.next s)
    | some p => fetch p { s with draws := s.draws + 1 }

/-- Place command `c` to be presented next at port `p`, scheduled next: the port, and any other port of the same agent,
is made idle, as a port must be to accept a command (R61). -/
def State.place (s : State) (p : Port) (c : Command) : State :=
  let idle (q : Port) (x : PortState) : PortState :=
    { x with
      pending := if q = p then c :: x.pending else x.pending
      flight := if s.cfg.agentOf q = s.cfg.agentOf p then none else x.flight }
  { s with
    portP := idle .producer s.portP
    portC := idle .consumer s.portC
    portH := idle .host s.portH
    sched := .port p :: s.sched }

/-- The command of a table word, from the agent of the port: its payload, where it carries one, is `ARG` zero bytes. -/
def tableCommand (s : State) (w : CmdWord) : Command :=
  { agent := s.cfg.agentOf (homePort w)
    word := w
    payload := if carriesPayload w then List.replicate (fieldArg w).toNat 0 else [] }

end Sys2Proof.Machine
end

