-- ==== Sys2Proof/Machine/Step.lean ====
section
/-! DEFINITION. One atomic step of the machine (R62, R67). -/

namespace Sys2Proof.Machine

/-- One step: whatever comes next (R67), an instruction taking its next step where one does. -/
def step (s : State) : Host.Outcome State Fault Refusal :=
  match select s with
  | .done o => o
  | .exec i t => exec i t

/-- `s` with a table word presented and scheduled next. -/
def State.withFetchWord (s : State) (nbits w : Nat) : State :=
  s.place (homePort (tableWord nbits w)) (tableCommand s (tableWord nbits w))

end Sys2Proof.Machine
end

