-- ==== Sys2Proof/Machine/Atomic.lean ====
section
/-! DEFINITION. The atomic reading of the phased operations (R62): their pseudocode read straight through, with no step
of another port between, as one function from a state and operands to a state and a response. Beside it, the phased
operation run alone to its end. -/

namespace Sys2Proof.Machine

/-- The storage after bytes go to the cells at offsets `k`, `k + 1`, ... from cursor `c` (R64, R165). -/
def writeAll (c : Cursor) (cap : Nat) : Nat → List Byte → Memory → Memory
  | _, [], m => m
  | k, b :: bs, m => writeAll c cap (k + 1) bs (Memory.write m (addr c k cap) b)

/-- The bytes that `n` reads at offsets `k`, `k + 1`, ... from cursor `c` return, in order (R64, R185). -/
def readAll (c : Cursor) (cap : Nat) : Nat → Nat → State → List Byte
  | _, 0, _ => []
  | k, n + 1, s => s.byteAt (addr c k cap) :: readAll c cap (k + 1) n (s.afterRead (addr c k cap))

/-- The state after those reads: only the count of draws can differ (R51, R53). -/
def afterReadAll (c : Cursor) (cap : Nat) : Nat → Nat → State → State
  | _, 0, s => s
  | k, n + 1, s => afterReadAll c cap (k + 1) n (s.afterRead (addr c k cap))

/-- A write operation with the given plan and payload, read straight through. -/
def State.writeThrough (s : State) (plan : Plan) (data : List Byte) : State :=
  ({ s with
    mem := writeAll plan.base plan.snap.cap.toNat 0 ((data.drop plan.skip).take plan.n) s.mem }).commitCursors plan

/-- A read operation with the given plan, read straight through. -/
def State.readThrough (s : State) (plan : Plan) : State :=
  (afterReadAll plan.base plan.snap.cap.toNat 0 plan.n s).commitCursors plan

/-- The bytes a read operation with the given plan returns. -/
def State.readBytes (s : State) (plan : Plan) : List Byte := readAll plan.base plan.snap.cap.toNat 0 plan.n s

/-- `PUT len, D` on an initialised block, as one function (R166). -/
def atomicPut (len : Half) (data : List Byte) (s : State) : State × Response :=
  let plan := putPlan len (s.snapshot .producer false)
  ((s.sampled .producer false).writeThrough plan data, Response.value (BitVec.ofNat 16 plan.n))

/-- `PUT_FORCE len, D` on an initialised block, as one function (R172). -/
def atomicPutForce (len : Half) (data : List Byte) (s : State) : State × Response :=
  let plan := putForcePlan len (s.snapshot .producer true)
  ((s.sampled .producer true).writeThrough plan data, Response.value (BitVec.ofNat 16 plan.n))

/-- `PUTCHAR b` on an initialised block, as one function (R206). -/
def atomicPutchar (b : Byte) (s : State) : State × Response :=
  let plan := putcharPlan (s.snapshot .producer false)
  ((s.sampled .producer false).writeThrough plan [b], Response.value (BitVec.ofNat 16 plan.n))

/-- `PUTCHAR_FORCE b` on an initialised block, as one function (R214). -/
def atomicPutcharForce (b : Byte) (s : State) : State × Response :=
  let plan := putcharForcePlan (s.snapshot .producer true)
  ((s.sampled .producer true).writeThrough plan [b], Response.value (BitVec.ofNat 16 plan.n))

/-- `GET len` on an initialised block, as one function (R186). -/
def atomicGet (len : Half) (s : State) : State × Response :=
  let v := s.snapshot .consumer false
  let t := s.sampled .consumer false
  let plan := readPlan (getCount len v) v
  (t.readThrough plan, { r0 := BitVec.ofNat 16 plan.n, r1 := 0, payload := t.readBytes plan })

/-- `GETCHAR` on an initialised block, as one function (R210). -/
def atomicGetchar (s : State) : State × Response :=
  let v := s.snapshot .consumer false
  let t := s.sampled .consumer false
  let plan := readPlan (getcharCount v) v
  (t.readThrough plan,
    if plan.n = 0 then Response.zero
    else { r0 := 1, r1 := (t.byteAt (addr plan.base 0 plan.snap.cap.toNat)).setWidth 16, payload := [] })

/-- `PEEK` on an initialised block, as one function (R191). -/
def atomicPeek (s : State) : State × Response :=
  let v := s.snapshot .consumer false
  let plan := readPlan (peekCount v) v
  ((s.sampled .consumer false).commitCursors plan,
    if plan.n = 0 then Response.zero
    else { r0 := BitVec.ofNat 16 plan.n, r1 := v.rc.idx.setWidth 16, payload := [] })

/-- `k` steps of one instruction on its port, with no step of another port between; it ends at the first stop. -/
def repeatExec (i : Instr) : Nat → State → Result
  | 0, s => .next s
  | k + 1, s =>
    match exec i s with
    | .next t => repeatExec i k t
    | .fault r => .fault r
    | .refused r => .refused r

end Sys2Proof.Machine
end

