-- ==== Sys2Proof/Machine/Trace.lean ====
section
/-! DEFINITION. A trace as the spec writes one (R105): lines in order, each run to completion before the next. -/

namespace Sys2Proof.Machine

/-- One line of a trace: the port, the instruction, and the payload where there is one. -/
structure Line where
  port : Port
  instr : Instr
  payload : List Byte
  deriving DecidableEq, Repr

/-- The command of a line, issued by the port's own agent. -/
def Line.command (c : Config) (l : Line) : Command :=
  { agent := c.agentOf l.port, word := encode l.instr, payload := l.payload }

/-- The agent of port `p` presents command `c` after those it has already issued. -/
def State.issue (s : State) (p : Port) (c : Command) : State :=
  s.setPort p { s.port p with pending := (s.port p).pending ++ [c] }

/-- Steps of port `p` until it has no operation in flight, at most `fuel` of them (R77: it runs its remaining steps). -/
def runPort (p : Port) : Nat → State → Result
  | 0, s => .next s
  | fuel + 1, s =>
    match step { s with sched := .port p :: s.sched } with
    | .next t => if t.busy p then runPort p fuel t else .next t
    | .fault r => .fault r
    | .refused r => .refused r

/-- One line of a trace, to completion (R105): an operation of effective length `n` takes `n + 2` steps (R290), and no
effective length exceeds `cap`. -/
def runLine (l : Line) (s : State) : Result :=
  runPort l.port (s.cap.toNat + 2) (s.issue l.port (l.command s.cfg))

/-- The lines of a trace, one after the other. -/
def runTrace : List Line → State → Result
  | [], s => .next s
  | l :: ls, s =>
    match runLine l s with
    | .next t => runTrace ls t
    | .fault r => .fault r
    | .refused r => .refused r

end Sys2Proof.Machine
end

