-- ==== Sys2Proof/Safety.lean ====
section
/-! DEFINITION. What counts as a sound state of the block, in the terms claims use: no race recorded (R226, R270, R271),
the storage in its form, the register invariants (R22, R34, R36), the operations in flight (R63 to R69, R79), the windows
of past cursor values (R71), the buffered content (R39), the counter view (R37), and the end of a run (R76). -/

namespace Sys2Proof.Machine

/-! ### Faults -/

/-- A recorded fault after which a state carries no guarantee: a race (R226, R270, R271). The other recorded faults stand
beside a defined no-op (R227, R229). -/
def isRace : RecordedFault → Bool
  | .preconditionViolated _ _ _ => false
  | .illegalCommand _ _ => false
  | .raceForce _ _ => true
  | .raceLifecycle _ _ => true

/-- No race has been recorded. -/
abbrev State.raceFree (s : State) : Prop := ∀ f ∈ s.faults, isRace f = false

/-! ### Storage and registers -/

/-- The storage is in its canonical form and lists only cells that exist (R50). -/
abbrev State.storageOk (s : State) : Prop := Memory.wf s.mem ∧ ∀ c ∈ s.mem, c.1 < s.cfg.storageBytes

/-- The lap order of R36. -/
abbrev lapOrder (w r : Cursor) : Prop :=
  (w.lap = r.lap → r.idx.toNat ≤ w.idx.toNat) ∧ (w.lap ≠ r.lap → w.idx.toNat ≤ r.idx.toNat)

/-- The registers of an initialised block: the capacity of R22, the index range of R34, the lap order of R36. -/
abbrev State.initedOk (s : State) : Prop :=
  s.cap.toNat % 4 = 0 ∧ 4 ≤ s.cap.toNat ∧ s.cap.toNat ≤ s.cfg.storageBytes ∧ s.cap.toNat + 4 ≤ 2 ^ s.cfg.idxW ∧
    s.wc.idx.toNat < s.cap.toNat ∧ s.rc.idx.toNat < s.cap.toNat ∧ lapOrder s.wc s.rc

/-- The registers of an UNINIT block (R22, R40): all 0, and nothing in flight (R228). -/
abbrev State.uninitOk (s : State) : Prop :=
  s.cap = 0 ∧ s.wc = Cursor.zero ∧ s.rc = Cursor.zero ∧ s.staleWc = [] ∧ s.staleRc = [] ∧
    s.portP.flight = none ∧ s.portC.flight = none

/-! ### Windows of past values -/

/-- The values of `rc` that port P may still see (R71): each in range and in lap order with `wc`, later ones leaving at
least as much room. -/
abbrev State.staleRcOk (s : State) : Prop :=
  (∀ r ∈ s.staleRc, r.idx.toNat < s.cap.toNat ∧ lapOrder s.wc r) ∧
    (s.staleRc ++ [s.rc]).Pairwise fun a b => freeLen s.wc a s.cap.toNat ≤ freeLen s.wc b s.cap.toNat

/-- The values of `wc` that port C may still see (R71): each in range and in lap order with `rc`, later ones holding at
least as much. -/
abbrev State.staleWcOk (s : State) : Prop :=
  (∀ w ∈ s.staleWc, w.idx.toNat < s.cap.toNat ∧ lapOrder w s.rc) ∧
    (s.staleWc ++ [s.wc]).Pairwise fun a b => dataLen a s.rc s.cap.toNat ≤ dataLen b s.rc s.cap.toNat

/-! ### Operations in flight -/

/-- The operations in three phases that port P runs (R62). -/
def writesCells : Instr → Bool
  | .put _ => true
  | .putForce _ => true
  | .putchar _ => true
  | .putcharForce _ => true
  | _ => false

/-- An operation in flight on port P: its own cursor is still the sampled one (R68), it writes at most the cells that are
still free, whichever read cursor it saw (R69, R79), and an overwriting one is a force write that fills the buffer
(R175, R176). -/
abbrev State.flightPOk (s : State) (f : Flight) : Prop :=
  s.inited = true ∧ writesCells f.op = true ∧ f.plan.base = s.wc ∧ f.plan.snap.cap = s.cap ∧
    f.plan.newWc = some (adv s.wc f.plan.n s.cap.toNat) ∧ f.plan.n ≤ s.cap.toNat ∧ f.k ≤ f.plan.n ∧
    f.plan.skip + f.plan.n ≤ f.data.length ∧
    (f.plan.ovw = false →
      f.plan.newRc = none ∧ ∀ r ∈ s.rc :: s.staleRc, f.plan.n ≤ freeLen s.wc r s.cap.toNat) ∧
    (f.plan.ovw = true →
      isForceWrite f.op = true ∧ f.plan.newRc = some (forcedRead (adv s.wc f.plan.n s.cap.toNat)) ∧
        freeLen s.wc s.rc s.cap.toNat < f.plan.n)

/-- An operation in flight on port C: its own cursor is still the sampled one (R68), and it reads at most the bytes that
are still buffered, whichever write cursor it saw (R69, R79). -/
abbrev State.flightCOk (s : State) (f : Flight) : Prop :=
  s.inited = true ∧ movesReadCursor f.op = true ∧ f.plan.base = s.rc ∧ f.plan.snap.cap = s.cap ∧
    f.plan.newWc = none ∧ f.plan.newRc = some (adv s.rc f.plan.n s.cap.toNat) ∧ f.plan.ovw = false ∧
    f.k ≤ f.plan.n ∧ ∀ w ∈ s.wc :: s.staleWc, f.plan.n ≤ dataLen w s.rc s.cap.toNat

/-- No force write is in flight beside an operation of port C (R270). -/
abbrev State.exclusiveOk (s : State) : Prop :=
  ∀ f ∈ s.portP.flight.toList, isForceWrite f.op = true → s.portC.flight = none

/-- What holds of a state in which no race has been recorded. -/
abbrev State.quietOk (s : State) : Prop :=
  (s.inited = true → s.initedOk) ∧ (s.inited = false → s.uninitOk) ∧ s.staleRcOk ∧ s.staleWcOk ∧
    (∀ f ∈ s.portP.flight.toList, s.flightPOk f) ∧ (∀ f ∈ s.portC.flight.toList, s.flightCOk f) ∧ s.exclusiveOk ∧
    s.portH.flight = none

/-- The invariant of the whole machine. -/
abbrev State.Inv (s : State) : Prop := s.cfg.valid = true ∧ s.storageOk ∧ (s.raceFree → s.quietOk)

/-! ### Content -/

/-- The buffered bytes, oldest first (R39); `none` for a cell that was never written. -/
def State.content (s : State) : List (Option Byte) :=
  (List.range (dataLen s.wc s.rc s.cap.toNat)).map fun i => Memory.read? s.mem (addr s.rc i s.cap.toNat)

/-- What the storage holds for the bytes that matter, while no race has been recorded: every buffered cell was written
(R39); an operation in flight on P has stored its first `k` payload bytes (R64); one on C that moves bytes has read the
first `k` buffered bytes (R64, R69). -/
abbrev State.DataInv (s : State) : Prop :=
  s.raceFree →
    (∀ i ∈ List.range (dataLen s.wc s.rc s.cap.toNat), (Memory.read? s.mem (addr s.rc i s.cap.toNat)).isSome = true) ∧
      (∀ f ∈ s.portP.flight.toList, ∀ k ∈ List.range f.k,
        Memory.read? s.mem (addr s.wc k s.cap.toNat) = f.data[f.plan.skip + k]?) ∧
      (∀ f ∈ s.portC.flight.toList, f.out.length = f.k ∧
        ∀ k ∈ List.range f.k, Memory.read? s.mem (addr s.rc k s.cap.toNat) = f.out[k]?)

/-! ### The counter view -/

/-- The cursor that stands for a total count of bytes committed (R37). -/
def counterCursor (total cap : Nat) : Cursor :=
  { lap := decide (total / cap % 2 = 1), idx := BitVec.ofNat 15 (total % cap) }

/-! ### The second form of the forced read cursor -/

/-- The source's own test for the read lap of an overwriting force write (R176, second form): it toggles exactly when the
new write index is at most the old read index. -/
def forcedReadBySource (w' r : Cursor) : Cursor :=
  { lap := if w'.idx.toNat ≤ r.idx.toNat then !r.lap else r.lap, idx := w'.idx }

/-! ### The end of a run -/

/-- The run is over (R76): every agent has issued all its commands and every port is idle; and no fault is recorded, since
a state with one is never final (R226). -/
abbrev State.final (s : State) : Prop :=
  (∀ p ∈ [Port.producer, Port.consumer, Port.host], (s.port p).pending = [] ∧ (s.port p).flight = none) ∧ s.faults = []

/-! ### Whole groups of instructions, and what a claim assumes of a state -/

/-- The lifecycle operations of port H. -/
def isLifecycle : Instr → Bool
  | .init _ => true
  | .create _ => true
  | .destroy => true
  | .reset => true
  | _ => false

/-- The queries, which every port accepts. -/
def isQuery : Instr → Bool
  | .status => true
  | .dataLen => true
  | .freeLen => true
  | _ => false

/-- The eight data operations of R227. -/
def isDataOp : Instr → Bool
  | .put _ => true
  | .putForce _ => true
  | .putchar _ => true
  | .putcharForce _ => true
  | .get _ => true
  | .getchar => true
  | .peek => true
  | .rdmem _ => true
  | _ => false

/-- The port an instruction runs on: the one port that accepts it (R92), and for a query the port whose step it is. -/
def State.portOf (s : State) (i : Instr) : Port :=
  if isQuery i then s.turn else if isLifecycle i then .host else if writesCells i then .producer else .consumer

/-- Port `p` is idle and presents a payload of the length instruction `i` says (R61, R97). -/
abbrev State.canAccept (s : State) (p : Port) (i : Instr) : Prop :=
  (s.port p).flight = none ∧ (s.presented p).length = payloadLen i

/-- What a `COMMIT` that goes from `s` to `t` does to the windows (R71): an overwriting force commit closes both; any other,
under `monotone_stale`, leaves the value a cursor had visible behind the new one, and under `fresh` adds none. -/
abbrev windowsMoved (overwrote : Bool) (s t : State) : Prop :=
  (overwrote = true → t.staleWc = [] ∧ t.staleRc = []) ∧
    (overwrote = false → s.cfg.cursorView = .fresh → t.staleWc = s.staleWc ∧ t.staleRc = s.staleRc) ∧
    (overwrote = false → s.cfg.cursorView = .monotoneStale →
      t.staleWc = (if t.wc = s.wc then s.staleWc else s.staleWc ++ [s.wc]) ∧
        t.staleRc = (if t.rc = s.rc then s.staleRc else s.staleRc ++ [s.rc]))

/-- The four registers are the same in both states. -/
abbrev sameRegisters (s t : State) : Prop :=
  t.inited = s.inited ∧ t.cap = s.cap ∧ t.wc = s.wc ∧ t.rc = s.rc

/-- What no instruction writes: the configuration, the port whose step it is, and the environment's schedule. -/
abbrev sameSetting (s t : State) : Prop := t.cfg = s.cfg ∧ t.turn = s.turn ∧ t.sched = s.sched

/-- Every cell holds what it held (R51): read by read, written and never-written cells alike. -/
abbrev sameCells (s t : State) : Prop := ∀ x, Memory.read? t.mem x = Memory.read? s.mem x

/-- Port `p` has accepted one command and given the response `r`, all in one step, and every other port is untouched. -/
abbrev answeredAtOnce (p : Port) (r : Response) (s t : State) : Prop :=
  t.port p =
      { pending := (s.port p).pending.tail, flight := (s.port p).flight, responses := (s.port p).responses ++ [r] } ∧
    ∀ q, q ≠ p → t.port q = s.port q

/-- Port `p` has accepted one command, now in flight as `f`, and every other port is untouched. -/
abbrev startedFlight (p : Port) (f : Flight) (s t : State) : Prop :=
  t.port p = { pending := (s.port p).pending.tail, flight := some f, responses := (s.port p).responses } ∧
    ∀ q, q ≠ p → t.port q = s.port q

/-- The operation in flight on port `p` is now `f`, and nothing else of any port has changed. -/
abbrev wentOn (p : Port) (f : Flight) (s t : State) : Prop :=
  t.port p = { pending := (s.port p).pending, flight := some f, responses := (s.port p).responses } ∧
    ∀ q, q ≠ p → t.port q = s.port q

/-- Port `p` has become idle and given the response `r`, and nothing else of any port has changed. -/
abbrev finishedFlight (p : Port) (r : Response) (s t : State) : Prop :=
  t.port p =
      { pending := (s.port p).pending, flight := none, responses := (s.port p).responses ++ [r] } ∧
    ∀ q, q ≠ p → t.port q = s.port q

end Sys2Proof.Machine
end

