-- ==== Sys2Proof/Certificates/Slice0/Obligations.lean ====
section
/-! DEFINITION. The statements about the model, from the spec's numbered rules. Each docstring names the rules it rests
on. A statement about a next state says `∃ t, exec i s = .next t ∧ ...` where the instruction completes, and
`exec i s = .next t → ...` where it says what is left unchanged. -/

open Sys2Proof Sys2Proof.Machine

/-! ### Encoding -/

/-- R94, R98, R104: decoding the word of an instruction gives it back, with every operand, at every port that accepts it
(R92), and is illegal by name at every other port. -/
def Obligations.DecodeOfEncode : Prop :=
  ∀ (p : Port) (i : Instr),
    decode p (encode i) = if accepts p i then .ok i else .illegal .wrongPort

/-- R98, R104: a word has one meaning: what a port decodes a word to encodes to that word, and the port accepts it. -/
def Obligations.EncodeOfDecode : Prop :=
  ∀ (p : Port) (w : CmdWord) (i : Instr), decode p w = .ok i → encode i = w ∧ accepts p i = true

/-- R102, R104: a word is illegal at a port exactly when `OPC = 0000`, or `RSV ≠ 0000`, or `ARG ≠ 0` in a format N or B
word, or `BYTE ≠ 0` in a format N or A word, or the port does not accept the opcode. Formats and ports are written out
by opcode number from R98. -/
def Obligations.IllegalExactlyAsListed : Prop :=
  ∀ (p : Port) (w : CmdWord),
    (∃ why, decode p w = .illegal why) ↔
      (fieldOpc w = 0 ∨ fieldRsv w ≠ 0 ∨
        (fieldArg w ≠ 0 ∧ (fieldOpc w).toNat ∈ [2, 4, 5, 6, 7, 10, 11, 13, 14]) ∨
        (fieldByte w ≠ 0 ∧ (fieldOpc w).toNat ∈ [1, 2, 3, 4, 5, 6, 7, 8, 9, 12, 13, 14, 15]) ∨
        (p ≠ .host ∧ (fieldOpc w).toNat ∈ [1, 2, 3, 4]) ∨
        (p ≠ .producer ∧ (fieldOpc w).toNat ∈ [8, 9, 10, 11]) ∨
        (p ≠ .consumer ∧ (fieldOpc w).toNat ∈ [12, 13, 14, 15]))

/-- R107: words of the spec's own encoding examples, one of each family, decode to what they stand for. -/
def Obligations.ExampleWordsDecode : Prop :=
  decode .host 0x10001000#32 = .ok (.init 16) ∧ decode .consumer 0x50000000#32 = .ok .status ∧
    decode .producer 0x90001400#32 = .ok (.putForce 20) ∧ decode .consumer 0xC0000500#32 = .ok (.get 5) ∧
    decode .producer 0xA000005A#32 = .ok (.putchar 0x5A) ∧ decode .consumer 0xF0000C00#32 = .ok (.rdmem 12)

/-! ### The multiplexer and the comparator -/

/-- R54: `addr(c, i, cap)` is `c.idx + i`, less `cap` when that reaches `cap`; it equals `(c.idx + i) mod cap`; the lap
plays no part. -/
def Obligations.AddrIsModulo : Prop :=
  ∀ (c : Cursor) (i cap : Nat), c.idx.toNat < cap → i < cap →
    addr c i cap = (if c.idx.toNat + i ≥ cap then c.idx.toNat + i - cap else c.idx.toNat + i) ∧
      addr c i cap = (c.idx.toNat + i) % cap ∧ addr c i cap < cap ∧
      ∀ l, addr { c with lap := l } i cap = addr c i cap

/-- R55: the advance of a cursor, its three consequences, and conflict C6 (the lap flips when the end is reached). -/
def Obligations.AdvanceFlipsLapAtEnd : Prop :=
  ∀ (c : Cursor) (n cap : Nat), c.idx.toNat < cap → n ≤ cap → cap < 32768 →
    (cap ≤ c.idx.toNat + n →
        (adv c n cap).lap = !c.lap ∧ (adv c n cap).idx.toNat = c.idx.toNat + n - cap) ∧
      (c.idx.toNat + n < cap → (adv c n cap).lap = c.lap ∧ (adv c n cap).idx.toNat = c.idx.toNat + n) ∧
      adv c 0 cap = c ∧ adv c cap cap = { lap := !c.lap, idx := c.idx } ∧ (adv c n cap).idx.toNat < cap

/-- R56: the two runs make up the transfer; byte `i` goes to the first run when `i < run1`, else to cell `i - run1` of
the second, which is `addr(c, i, cap)`; the second run is used exactly when the transfer crosses the end; the lap flips
exactly when it reaches the end. -/
def Obligations.RunsMakeUpTransfer : Prop :=
  ∀ (c : Cursor) (n cap : Nat), c.idx.toNat < cap → n ≤ cap →
    run1 c n cap = min n (cap - c.idx.toNat) ∧ run1 c n cap + run2 c n cap = n ∧
      (∀ i, i < run1 c n cap → addr c i cap = c.idx.toNat + i) ∧
      (∀ i, run1 c n cap ≤ i → i < n → addr c i cap = i - run1 c n cap) ∧
      (0 < run2 c n cap ↔ cap < c.idx.toNat + n) ∧ ((adv c n cap).lap ≠ c.lap ↔ cap ≤ c.idx.toNat + n)

/-- R205: the unit advance, and the one cell of a single byte. -/
def Obligations.UnitAdvance : Prop :=
  ∀ (c : Cursor) (cap : Nat), c.idx.toNat < cap → cap < 32768 →
    adv c 1 cap = (if c.idx.toNat = cap - 1 then { lap := !c.lap, idx := 0 }
        else { lap := c.lap, idx := c.idx + 1 }) ∧
      addr c 0 cap = c.idx.toNat

/-- R37: the counter view: with `W` and `R` the total bytes committed to the two cursors, the comparator gives `W - R`,
`EMPTY` exactly when they are equal, `FULL` exactly when they differ by `cap`; and an advance adds to the total. -/
def Obligations.ComparatorCountsBytes : Prop :=
  ∀ cap W R : Nat, 0 < cap → cap < 32768 → R ≤ W → W ≤ R + cap →
    dataLen (counterCursor W cap) (counterCursor R cap) cap = W - R ∧
      (status (counterCursor W cap) (counterCursor R cap) = .empty ↔ W = R) ∧
      (status (counterCursor W cap) (counterCursor R cap) = .full ↔ W - R = cap) ∧
      ∀ n, n ≤ cap → adv (counterCursor W cap) n cap = counterCursor (W + n) cap

/-- R36 (its proof sketch): a commit of at most the free length to `wc`, or of at most the data length to `rc`, keeps
the lap order and moves `data_len` by exactly that much. -/
def Obligations.AdvanceKeepsLapOrder : Prop :=
  ∀ (w r : Cursor) (n cap : Nat), w.idx.toNat < cap → r.idx.toNat < cap → cap < 32768 → lapOrder w r →
    (n ≤ freeLen w r cap →
        lapOrder (adv w n cap) r ∧ dataLen (adv w n cap) r cap = dataLen w r cap + n) ∧
      (n ≤ dataLen w r cap →
        lapOrder w (adv r n cap) ∧ dataLen w (adv r n cap) cap + n = dataLen w r cap)

/-- R176, R177: on an overwrite the read cursor (opposite lap, same index as the new write cursor) is what the source's
own test gives, and the status afterwards is `FULL`. -/
def Obligations.ForcedReadFormsAgree : Prop :=
  ∀ (w r : Cursor) (n cap : Nat), w.idx.toNat < cap → r.idx.toNat < cap → cap < 32768 → lapOrder w r → n ≤ cap →
    freeLen w r cap < n →
      forcedRead (adv w n cap) = forcedReadBySource (adv w n cap) r ∧
        status (adv w n cap) (forcedRead (adv w n cap)) = .full

/-! ### Lifecycle -/

/-- R71, R130, R132, R136: with ports P and C idle, a legal `INIT` or `CREATE` sets the aligned capacity and both
cursors to (0, 0), writes no cell, closes both windows of past cursor values, and answers the capacity. -/
def Obligations.InitAndCreateBindStorage : Prop :=
  ∀ (s : State) (c : Half) (i : Instr), i = .init c ∨ i = .create c → s.cfg.valid = true → s.canAccept .host i →
    s.portP.flight = none → s.portC.flight = none →
    4 ≤ c.toNat → c.toNat ≤ 2 ^ s.cfg.idxW - 1 → c.toNat ≤ s.cfg.storageBytes →
    ∃ t, exec i s = .next t ∧ t.inited = true ∧ t.cap.toNat = c.toNat - c.toNat % 4 ∧
      t.wc = { lap := false, idx := 0 } ∧ t.rc = { lap := false, idx := 0 } ∧ t.staleWc = [] ∧ t.staleRc = [] ∧
      t.mem = s.mem ∧ t.faults = s.faults ∧
      answeredAtOnce .host { r0 := BitVec.ofNat 16 (c.toNat - c.toNat % 4), r1 := 0, payload := [] } s t

/-- R131, R133, R227: `INIT` and `CREATE` of 0 to 3, of more than `2 ^ IDX_W - 1`, or of more than `STORAGE_BYTES` fail:
no register and no cell changes and the response is 0. With ports P and C idle, only under `assert` the violation is
recorded. Beside a busy port the step is a race by R271 (its record is what `LifecycleRaceRecorded` states); that it
still answers a next state, with the degrade behaviour, is the model's choice (log entry 7; R226 lets a model stop). -/
def Obligations.InitAndCreateFail : Prop :=
  ∀ (s : State) (c : Half) (i : Instr), i = .init c ∨ i = .create c → s.canAccept .host i →
    c.toNat < 4 ∨ 2 ^ s.cfg.idxW - 1 < c.toNat ∨ s.cfg.storageBytes < c.toNat →
    ∃ t, exec i s = .next t ∧ sameRegisters s t ∧ t.mem = s.mem ∧
      answeredAtOnce .host { r0 := 0, r1 := 0, payload := [] } s t ∧
      (s.portP.flight = none → s.portC.flight = none →
        (s.cfg.assertMode = .degrade → t.faults = s.faults) ∧
          (s.cfg.assertMode = .assert → .preconditionViolated i s.inited s.cap ∈ t.faults))

/-- R71, R138, R139: with ports P and C idle, `DESTROY` returns the block to UNINIT, writes no cell, closes both windows
of past cursor values, and answers 0. -/
def Obligations.DestroyReturnsToUninit : Prop :=
  ∀ s : State, s.canAccept .host .destroy → s.portP.flight = none → s.portC.flight = none →
    ∃ t, exec .destroy s = .next t ∧ t.inited = false ∧ t.cap = 0 ∧ t.wc = { lap := false, idx := 0 } ∧
      t.rc = { lap := false, idx := 0 } ∧ t.staleWc = [] ∧ t.staleRc = [] ∧
      t.mem = s.mem ∧ t.faults = s.faults ∧
      answeredAtOnce .host { r0 := 0, r1 := 0, payload := [] } s t

/-- R71, R141, R142, R143: with ports P and C idle, `RESET` of an initialised block sets both cursors to (0, 0),
whatever the laps were, closes both windows of past cursor values, and leaves the capacity and every cell; in the UNINIT
state it changes no register. It answers 0 and is no violation in either. -/
def Obligations.ResetClearsCursors : Prop :=
  ∀ s : State, s.canAccept .host .reset → s.portP.flight = none → s.portC.flight = none →
    ∃ t, exec .reset s = .next t ∧ t.inited = s.inited ∧ t.cap = s.cap ∧ t.mem = s.mem ∧ t.faults = s.faults ∧
      (s.inited = true → t.wc = { lap := false, idx := 0 } ∧ t.rc = { lap := false, idx := 0 } ∧
        t.staleWc = [] ∧ t.staleRc = []) ∧
      (s.inited = false → t.wc = s.wc ∧ t.rc = s.rc) ∧
      answeredAtOnce .host { r0 := 0, r1 := 0, payload := [] } s t

/-- R230, R271: a lifecycle operation that steps while port P or port C is busy records `RaceLifecycle`, in either
`ASSERT_MODE`, even when the operation fails or changes nothing. Two clauses are the model's choice: that the record
holds every busy port with its operation (log entry 13; R230 speaks of the busy port), and that the run goes on (log
entry 7; R226 lets a model stop). -/
def Obligations.LifecycleRaceRecorded : Prop :=
  ∀ (s : State) (i : Instr) (p : Port) (f : Flight), isLifecycle i = true → s.canAccept .host i → p ≠ .host →
    (s.port p).flight = some f →
    ∃ t busy, exec i s = .next t ∧ .raceLifecycle i busy ∈ t.faults ∧ (p, f.op) ∈ busy

/-- Frame of `INIT`, `CREATE`, `DESTROY`, `RESET` (R26, R145): no cell changes, nothing of ports P and C changes, no
free value is drawn, recorded faults stay, and the capacity and `inited` change only by the first three. -/
def Obligations.LifecycleFrame : Prop :=
  ∀ (s t : State) (i : Instr), isLifecycle i = true → exec i s = .next t →
    sameCells s t ∧ sameSetting s t ∧ t.draws = s.draws ∧ t.portP = s.portP ∧ t.portC = s.portC ∧
      t.portH.flight = s.portH.flight ∧ t.portH.pending = s.portH.pending.tail ∧ (∀ f ∈ s.faults, f ∈ t.faults) ∧
      (i = .reset → t.inited = s.inited ∧ t.cap = s.cap)

/-! ### Queries -/

/-- R99, R150, R151: `STATUS`, at whichever port asks, answers 0 for `EMPTY`, 1 for `FULL`, 2 for `HALF_FULL`, and 0 in
the UNINIT state; it changes no register, no cell, and records nothing. Under either view the cursors compared are the
committed ones (the model's reading of R62 and R154, log entry 11). -/
def Obligations.StatusAnswersCode : Prop :=
  ∀ s : State, s.canAccept s.turn .status →
    ∃ t, exec .status s = .next t ∧ sameRegisters s t ∧ t.mem = s.mem ∧ t.faults = s.faults ∧
      answeredAtOnce s.turn
        { r0 := if s.inited = false then 0
            else if s.wc.idx = s.rc.idx then (if s.wc.lap = s.rc.lap then 0 else 1) else 2
          r1 := 0, payload := [] } s t

/-- R31, R150, R152: `DATA_LEN` answers the number of buffered bytes: 0 when `EMPTY`, `cap` when `FULL`, else the
distance from the read to the write index, around the end where the region wraps; 0 in the UNINIT state. Under either
view it counts between the committed cursors (log entry 11). -/
def Obligations.DataLenAnswersCount : Prop :=
  ∀ s : State, s.canAccept s.turn .dataLen →
    ∃ t, exec .dataLen s = .next t ∧ sameRegisters s t ∧ t.mem = s.mem ∧ t.faults = s.faults ∧
      answeredAtOnce s.turn
        { r0 := if s.inited = false then 0
            else if s.wc.idx = s.rc.idx then (if s.wc.lap = s.rc.lap then 0 else s.cap.setWidth 16)
            else if s.rc.idx.toNat < s.wc.idx.toNat then BitVec.ofNat 16 (s.wc.idx.toNat - s.rc.idx.toNat)
            else BitVec.ofNat 16 (s.cap.toNat - (s.rc.idx.toNat - s.wc.idx.toNat))
          r1 := 0, payload := [] } s t

/-- R32, R150, R153: `FREE_LEN` answers `cap - data_len`; 0 in the UNINIT state. Under either view it counts between the
committed cursors (log entry 11). -/
def Obligations.FreeLenAnswersCount : Prop :=
  ∀ s : State, s.canAccept s.turn .freeLen →
    ∃ t, exec .freeLen s = .next t ∧ sameRegisters s t ∧ t.mem = s.mem ∧ t.faults = s.faults ∧
      answeredAtOnce s.turn
        { r0 := if s.inited = false then 0
            else if s.wc.idx = s.rc.idx then (if s.wc.lap = s.rc.lap then s.cap.setWidth 16 else 0)
            else if s.rc.idx.toNat < s.wc.idx.toNat then
              BitVec.ofNat 16 (s.cap.toNat - (s.wc.idx.toNat - s.rc.idx.toNat))
            else BitVec.ofNat 16 (s.cap.toNat - (s.cap.toNat - (s.rc.idx.toNat - s.wc.idx.toNat)))
          r1 := 0, payload := [] } s t

/-- R35, R154: a `DATA_LEN` and a `FREE_LEN` in states with the same registers (so with no commit between them, in
either order, each at any port, under either view) sum to `cap`; in the UNINIT state both are 0. Of states without a
recorded race, as R226 promises nothing after one. -/
def Obligations.LengthsSumToCapacity : Prop :=
  ∀ s t : State, s.Inv → s.raceFree → sameRegisters s t → s.canAccept s.turn .dataLen → t.canAccept t.turn .freeLen →
    ∃ s' t' a b, exec .dataLen s = .next s' ∧ exec .freeLen t = .next t' ∧
      answeredAtOnce s.turn { r0 := a, r1 := 0, payload := [] } s s' ∧
      answeredAtOnce t.turn { r0 := b, r1 := 0, payload := [] } t t' ∧
      a.toNat + b.toNat = s.cap.toNat ∧ (s.inited = false → a = 0 ∧ b = 0)

/-- Frame of `STATUS`, `DATA_LEN`, `FREE_LEN` under either view (R26, R150): no register, cell, recorded fault or
operation in flight changes, no other port, and no free value is drawn. A query of an initialised block closes the
window of its own port, as R274 lets that port rely on what it read (log entry 11), and leaves the other port's. -/
def Obligations.QueryFrame : Prop :=
  ∀ (s t : State) (i : Instr), isQuery i = true → exec i s = .next t →
    sameRegisters s t ∧ sameCells s t ∧ sameSetting s t ∧ t.faults = s.faults ∧ t.draws = s.draws ∧
      (∀ p, (t.port p).flight = (s.port p).flight ∧ (p ≠ s.turn → t.port p = s.port p)) ∧
      t.staleRc = (if s.inited = true ∧ s.turn = .producer then [] else s.staleRc) ∧
      t.staleWc = (if s.inited = true ∧ s.turn = .consumer then [] else s.staleWc)

/-- R71: under `monotone_stale` a sample of port P that is no force write sees the committed `cap` and `wc`, and for
`rc` one of the values its window still holds; afterwards the window opens at the value seen. Symmetrically for port C.
-/
def Obligations.StaleSampleStaysInWindow : Prop :=
  ∀ s : State, s.cfg.cursorView = .monotoneStale →
    ((s.snapshot .producer false).cap = s.cap ∧ (s.snapshot .producer false).wc = s.wc ∧
        ∃ older, s.staleRc = older ++ (s.sampled .producer false).staleRc ∧
          ((s.sampled .producer false).staleRc ++ [s.rc]).head? = some (s.snapshot .producer false).rc) ∧
      ((s.snapshot .consumer false).cap = s.cap ∧ (s.snapshot .consumer false).rc = s.rc ∧
        ∃ older, s.staleWc = older ++ (s.sampled .consumer false).staleWc ∧
          ((s.sampled .consumer false).staleWc ++ [s.wc]).head? = some (s.snapshot .consumer false).wc)

/-! ### Samples -/

/-- R63, R71, R166, R167: the `SAMPLE` of `PUT len, D` latches `n = min(len, free_len)`, the payload, and the advanced
write cursor, and writes no register and no cell. The read cursor `r` it sees is the committed one under `fresh`, and
one of its window under `monotone_stale`. -/
def Obligations.PutSamplesPlan : Prop :=
  ∀ (s : State) (len : Half), s.canAccept .producer (.put len) → s.inited = true →
    ∃ t f r, exec (.put len) s = .next t ∧ startedFlight .producer f s t ∧ sameRegisters s t ∧ t.mem = s.mem ∧
      t.faults = s.faults ∧ r ∈ s.rc :: s.staleRc ∧ (s.cfg.cursorView = .fresh → r = s.rc) ∧
      f.op = .put len ∧ f.data = s.presented .producer ∧ f.k = 0 ∧ f.out = [] ∧
      f.plan.n = min len.toNat (freeLen s.wc r s.cap.toNat) ∧ f.plan.skip = 0 ∧ f.plan.ovw = false ∧
      f.plan.base = s.wc ∧ f.plan.newWc = some (adv s.wc f.plan.n s.cap.toNat) ∧ f.plan.newRc = none

/-- R172, R173, R175, R176: with port C idle, the `SAMPLE` of `PUT_FORCE len, D` latches `n = min(len, cap)`, drops the
first `len - n` payload bytes, and overwrites exactly when `n` exceeds the free length; the read cursor to commit is
then the new write index with the opposite lap. Under either view, as a force write samples fresh values (R71). -/
def Obligations.PutForceSamplesPlan : Prop :=
  ∀ (s : State) (len : Half), s.canAccept .producer (.putForce len) → s.inited = true → s.portC.flight = none →
    ∃ t f, exec (.putForce len) s = .next t ∧ startedFlight .producer f s t ∧ sameRegisters s t ∧ t.mem = s.mem ∧
      t.faults = s.faults ∧ f.op = .putForce len ∧ f.data = s.presented .producer ∧ f.k = 0 ∧
      f.plan.n = min len.toNat s.cap.toNat ∧ f.plan.skip = len.toNat - f.plan.n ∧
      (f.plan.ovw = true ↔ freeLen s.wc s.rc s.cap.toNat < f.plan.n) ∧ f.plan.base = s.wc ∧
      f.plan.newWc = some (adv s.wc f.plan.n s.cap.toNat) ∧
      (f.plan.ovw = false → f.plan.newRc = none) ∧
      (f.plan.ovw = true →
        f.plan.newRc = some { lap := !(adv s.wc f.plan.n s.cap.toNat).lap, idx := (adv s.wc f.plan.n s.cap.toNat).idx })

/-- R71, R206, R214: the `SAMPLE`s of `PUTCHAR` and `PUTCHAR_FORCE`: one byte unless `PUTCHAR` finds the buffer full (by
the read cursor `r` it sees); `PUTCHAR_FORCE`, with port C idle, overwrites exactly when it is full (by the committed
one). -/
def Obligations.SingleByteWritesSamplePlan : Prop :=
  ∀ (s : State) (b : Byte), s.inited = true →
    (s.canAccept .producer (.putchar b) →
      ∃ t f r, exec (.putchar b) s = .next t ∧ startedFlight .producer f s t ∧ sameRegisters s t ∧ t.mem = s.mem ∧
        t.faults = s.faults ∧ r ∈ s.rc :: s.staleRc ∧ (s.cfg.cursorView = .fresh → r = s.rc) ∧
        f.op = .putchar b ∧ f.data = [b] ∧ f.k = 0 ∧
        f.plan.n = (if status s.wc r = .full then 0 else 1) ∧ f.plan.skip = 0 ∧ f.plan.base = s.wc ∧
        f.plan.newWc = some (adv s.wc f.plan.n s.cap.toNat) ∧ f.plan.newRc = none ∧ f.plan.ovw = false) ∧
      (s.canAccept .producer (.putcharForce b) → s.portC.flight = none →
        ∃ t f, exec (.putcharForce b) s = .next t ∧ startedFlight .producer f s t ∧ sameRegisters s t ∧
          t.mem = s.mem ∧ t.faults = s.faults ∧ f.op = .putcharForce b ∧ f.data = [b] ∧ f.k = 0 ∧ f.plan.n = 1 ∧
          f.plan.skip = 0 ∧ f.plan.base = s.wc ∧ f.plan.newWc = some (adv s.wc 1 s.cap.toNat) ∧
          (f.plan.ovw = true ↔ status s.wc s.rc = .full) ∧
          f.plan.newRc = if status s.wc s.rc = .full then
              some { lap := !(adv s.wc 1 s.cap.toNat).lap, idx := (adv s.wc 1 s.cap.toNat).idx }
            else none)

/-- R71, R186, R191, R193, R210: the `SAMPLE`s of `GET`, `GETCHAR` and `PEEK` with no force write in flight: `min(len,
data_len)` bytes, one byte unless the buffer is empty, and the contiguous run `min(data_len, cap - rc.idx)`. The write
cursor `w` seen is the committed one under `fresh`, and one of its window under `monotone_stale`. -/
def Obligations.ReadsSamplePlan : Prop :=
  ∀ (s : State) (i : Instr), movesReadCursor i = true → s.canAccept .consumer i → s.inited = true →
    (∀ f ∈ s.portP.flight.toList, isForceWrite f.op = false) →
    ∃ t f w, exec i s = .next t ∧ startedFlight .consumer f s t ∧ sameRegisters s t ∧ t.mem = s.mem ∧
      t.faults = s.faults ∧ w ∈ s.wc :: s.staleWc ∧ (s.cfg.cursorView = .fresh → w = s.wc) ∧
      f.op = i ∧ f.k = 0 ∧ f.out = [] ∧ f.plan.base = s.rc ∧ f.plan.newWc = none ∧
      f.plan.newRc = some (adv s.rc f.plan.n s.cap.toNat) ∧ f.plan.ovw = false ∧
      (∀ len, i = .get len → f.plan.n = min len.toNat (dataLen w s.rc s.cap.toNat)) ∧
      (i = .getchar → f.plan.n = if status w s.rc = .empty then 0 else 1) ∧
      (i = .peek → f.plan.n = min (dataLen w s.rc s.cap.toNat) (s.cap.toNat - s.rc.idx.toNat))

/-- R227, R228: in the UNINIT state each of the eight data operations completes in one step, changes no register and no
cell, and answers all zeros with no payload; only under `assert` the violation is recorded. -/
def Obligations.UninitDataOperationsAnswerZero : Prop :=
  ∀ (s : State) (i : Instr), isDataOp i = true → s.canAccept (s.portOf i) i → s.inited = false →
    ∃ t, exec i s = .next t ∧ sameRegisters s t ∧ t.mem = s.mem ∧
      answeredAtOnce (s.portOf i) { r0 := 0, r1 := 0, payload := [] } s t ∧
      (s.cfg.assertMode = .degrade → t.faults = s.faults) ∧
      (s.cfg.assertMode = .assert → .preconditionViolated i false s.cap ∈ t.faults)

/-- R270: a force write that samples while `GET`, `GETCHAR` or `PEEK` is in flight on C, and a `GET`, `GETCHAR` or
`PEEK` that samples while a force write is in flight on P, record `RaceForce` in either `ASSERT_MODE`; the one that
started second is named last. That the run goes on is the model's choice among those R226 leaves (log entry 7). -/
def Obligations.ForceRaceRecorded : Prop :=
  ∀ (s : State) (i : Instr) (f : Flight), s.inited = true →
    (isForceWrite i = true → s.canAccept .producer i → s.portC.flight = some f → movesReadCursor f.op = true →
        ∃ t, exec i s = .next t ∧ .raceForce f.op i ∈ t.faults) ∧
      (movesReadCursor i = true → s.canAccept .consumer i → s.portP.flight = some f → isForceWrite f.op = true →
        ∃ t, exec i s = .next t ∧ .raceForce f.op i ∈ t.faults)

/-! ### Transfers and commits -/

/-- R52, R64: an `XFER` step of a write operation stores payload byte `skip + k` in cell `addr(base, k, cap_s)`, leaves
every other cell and every register, and counts one more. -/
def Obligations.WriteTransfersOneByte : Prop :=
  ∀ (s : State) (f : Flight) (v : Byte), writesCells f.op = true → s.portP.flight = some f → f.k < f.plan.n →
    addr f.plan.base f.k f.plan.snap.cap.toNat < s.cfg.storageBytes → f.data[f.plan.skip + f.k]? = some v →
    ∃ t, exec f.op s = .next t ∧ wentOn .producer { f with k := f.k + 1 } s t ∧ sameRegisters s t ∧
      t.faults = s.faults ∧
      Memory.read? t.mem (addr f.plan.base f.k f.plan.snap.cap.toNat) = some v ∧
      ∀ x, x ≠ addr f.plan.base f.k f.plan.snap.cap.toNat → Memory.read? t.mem x = Memory.read? s.mem x

/-- R51, R64: an `XFER` step of `GET` or `GETCHAR` appends the byte of cell `addr(base, k, cap_s)` to what was read and
changes no cell and no register; no free value is drawn where the cell was written. -/
def Obligations.ReadTransfersOneByte : Prop :=
  ∀ (s : State) (f : Flight) (v : Byte), (∃ len, f.op = .get len) ∨ f.op = .getchar → s.portC.flight = some f →
    f.k < f.plan.n → addr f.plan.base f.k f.plan.snap.cap.toNat < s.cfg.storageBytes →
    Memory.read? s.mem (addr f.plan.base f.k f.plan.snap.cap.toNat) = some v →
    ∃ t, exec f.op s = .next t ∧ wentOn .consumer { f with k := f.k + 1, out := f.out ++ [v] } s t ∧
      sameRegisters s t ∧ t.mem = s.mem ∧ t.faults = s.faults ∧ t.draws = s.draws

/-- R65, R66, R71, R176: the `COMMIT` of a write operation, once all its bytes are stored, writes the cursors its plan
holds, frees the port and answers the count, all in one step; it writes no cell. Under `monotone_stale` the value a
cursor had stays visible in its window, but an overwriting commit closes both windows. -/
def Obligations.WriteCommitPublishes : Prop :=
  ∀ (s : State) (f : Flight), writesCells f.op = true → s.portP.flight = some f → f.k = f.plan.n →
    ∃ t, exec f.op s = .next t ∧ t.wc = f.plan.newWc.getD s.wc ∧ t.rc = f.plan.newRc.getD s.rc ∧
      t.inited = s.inited ∧ t.cap = s.cap ∧ t.mem = s.mem ∧ t.faults = s.faults ∧ windowsMoved f.plan.ovw s t ∧
      finishedFlight .producer { r0 := BitVec.ofNat 16 f.plan.n, r1 := 0, payload := [] } s t

/-- R65, R71, R101, R186, R191, R210: the `COMMIT` of `GET`, `GETCHAR` or `PEEK` writes the read cursor of the plan,
frees the port and answers: `GET` the count and the bytes read; `GETCHAR` the count and its one byte, or zeros; `PEEK`
(which moves no byte) the length and the start index, or zeros. Under `monotone_stale` the value the read cursor had
stays visible to port P. -/
def Obligations.ReadCommitPublishes : Prop :=
  ∀ (s : State) (f : Flight), movesReadCursor f.op = true → s.portC.flight = some f →
    (f.op = .peek ∨ (f.k = f.plan.n ∧ f.out.length = f.k)) → (f.op = .getchar → f.plan.n ≤ 1) →
    ∃ t r, exec f.op s = .next t ∧ t.wc = f.plan.newWc.getD s.wc ∧ t.rc = f.plan.newRc.getD s.rc ∧
      t.inited = s.inited ∧ t.cap = s.cap ∧ t.mem = s.mem ∧ t.faults = s.faults ∧ windowsMoved f.plan.ovw s t ∧
      finishedFlight .consumer r s t ∧
      (∀ len, f.op = .get len → r = { r0 := BitVec.ofNat 16 f.plan.n, r1 := 0, payload := f.out }) ∧
      (f.op = .getchar →
        (f.plan.n = 0 → r = { r0 := 0, r1 := 0, payload := [] }) ∧
          ∀ b, f.out = [b] → r = { r0 := 1, r1 := b.setWidth 16, payload := [] }) ∧
      (f.op = .peek →
        (f.plan.n = 0 → r = { r0 := 0, r1 := 0, payload := [] }) ∧
          (0 < f.plan.n →
            r = { r0 := BitVec.ofNat 16 f.plan.n, r1 := f.plan.base.idx.setWidth 16, payload := [] }))

/-- Frame of `PUT`, `PUT_FORCE`, `PUTCHAR`, `PUTCHAR_FORCE` (R26, R79): `inited` and `cap` never change; the cursors
change only at a `COMMIT`; the one cell an `XFER` stores to is `addr(base, k, cap_s)` of the operation in flight, and
every other cell, or every cell in a step that is no `XFER`, reads as before; ports C and H are untouched and recorded
faults stay. -/
def Obligations.WriteFrame : Prop :=
  ∀ (s t : State) (i : Instr), writesCells i = true → exec i s = .next t →
    t.inited = s.inited ∧ t.cap = s.cap ∧ sameSetting s t ∧ t.portC = s.portC ∧ t.portH = s.portH ∧
      (∀ f ∈ s.faults, f ∈ t.faults) ∧
      ((∀ f, s.portP.flight = some f → f.k < f.plan.n) → t.wc = s.wc ∧ t.rc = s.rc) ∧
      (∀ f, s.portP.flight = some f → f.plan.newRc = none → t.rc = s.rc) ∧
      ∀ x, (∀ f, s.portP.flight = some f → f.k < f.plan.n →
          x ≠ addr f.plan.base f.k f.plan.snap.cap.toNat) → Memory.read? t.mem x = Memory.read? s.mem x

/-- Frame of `GET`, `GETCHAR`, `PEEK`, `RDMEM` (R26, R79): no cell changes; `inited` and `cap` never change; `wc`
changes by no plan without a write cursor; `rc` changes only at a `COMMIT`, by `RDMEM` never; ports P and H are
untouched and recorded faults stay. -/
def Obligations.ReadFrame : Prop :=
  ∀ (s t : State) (i : Instr), movesReadCursor i = true ∨ (∃ x, i = .rdmem x) → exec i s = .next t →
    sameCells s t ∧ t.inited = s.inited ∧ t.cap = s.cap ∧ sameSetting s t ∧ t.portP = s.portP ∧ t.portH = s.portH ∧
      (∀ f ∈ s.faults, f ∈ t.faults) ∧ (s.portC.flight = none → t.wc = s.wc ∧ t.rc = s.rc) ∧
      (∀ f, s.portC.flight = some f → f.plan.newWc = none → t.wc = s.wc) ∧
      (∀ f, s.portC.flight = some f → f.k < f.plan.n → i ≠ .peek → t.rc = s.rc)

/-- R198, R199, R227, on an initialised block whose `cap` is at most `STORAGE_BYTES`: `RDMEM idx` reads one cell below
`cap` without any effect on a register or cell and answers its byte beside `R0 = 1` (whatever value, where the cell was
never written: R53); an index at or above `cap` answers zeros, and only under `assert` the violation is recorded. -/
def Obligations.RdmemReadsOneCell : Prop :=
  ∀ (s : State) (x : Half), s.canAccept .consumer (.rdmem x) → s.inited = true → s.cap.toNat ≤ s.cfg.storageBytes →
    (x.toNat < s.cap.toNat →
        ∃ t b, exec (.rdmem x) s = .next t ∧ sameRegisters s t ∧ t.mem = s.mem ∧ t.faults = s.faults ∧
          answeredAtOnce .consumer { r0 := 1, r1 := BitVec.setWidth 16 b, payload := [] } s t ∧
          ∀ v, Memory.read? s.mem x.toNat = some v → b = v ∧ t.draws = s.draws) ∧
      (s.cap.toNat ≤ x.toNat →
        ∃ t, exec (.rdmem x) s = .next t ∧ sameRegisters s t ∧ t.mem = s.mem ∧
          answeredAtOnce .consumer { r0 := 0, r1 := 0, payload := [] } s t ∧
          (s.cfg.assertMode = .degrade → t.faults = s.faults) ∧
          (s.cfg.assertMode = .assert → .preconditionViolated (.rdmem x) true s.cap ∈ t.faults))

/-! ### Atomic readings -/

/-- R62, R73, R290: with no step of another port between, `PUT` of effective length `n` takes `n + 2` steps and has
exactly the effect and response of its atomic reading; and so has `PUT_FORCE`, with port C idle (R270). -/
def Obligations.BulkWritesRunAsAtomicReading : Prop :=
  ∀ (s : State) (len : Half), s.inited = true → s.wc.idx.toNat < s.cap.toNat → s.cap.toNat ≤ s.cfg.storageBytes →
    (s.canAccept .producer (.put len) →
      repeatExec (.put len) (putCount len (s.snapshot .producer false) + 2) s =
        .next ((atomicPut len (s.presented .producer) (s.accept .producer)).1.respond .producer
          (atomicPut len (s.presented .producer) (s.accept .producer)).2)) ∧
      (s.canAccept .producer (.putForce len) → s.portC.flight = none →
        repeatExec (.putForce len) (min len.toNat s.cap.toNat + 2) s =
          .next ((atomicPutForce len (s.presented .producer) (s.accept .producer)).1.respond .producer
            (atomicPutForce len (s.presented .producer) (s.accept .producer)).2))

/-- R62, R73, R290: the same for `PUTCHAR` and, with port C idle, `PUTCHAR_FORCE`. -/
def Obligations.SingleByteWritesRunAsAtomicReading : Prop :=
  ∀ (s : State) (b : Byte), s.inited = true → s.wc.idx.toNat < s.cap.toNat → s.cap.toNat ≤ s.cfg.storageBytes →
    (s.canAccept .producer (.putchar b) →
      repeatExec (.putchar b) (putcharCount (s.snapshot .producer false) + 2) s =
        .next ((atomicPutchar b (s.accept .producer)).1.respond .producer
          (atomicPutchar b (s.accept .producer)).2)) ∧
      (s.canAccept .producer (.putcharForce b) → s.portC.flight = none →
        repeatExec (.putcharForce b) 3 s =
          .next ((atomicPutcharForce b (s.accept .producer)).1.respond .producer
            (atomicPutcharForce b (s.accept .producer)).2))

/-- R62, R73, R290: the same for `GET` and `GETCHAR`, and for `PEEK`, which takes 2 steps, with no force write in flight
(R270). -/
def Obligations.ReadsRunAsAtomicReading : Prop :=
  ∀ s : State, s.inited = true → s.rc.idx.toNat < s.cap.toNat → s.cap.toNat ≤ s.cfg.storageBytes →
    (∀ w ∈ s.wc :: s.staleWc, w.idx.toNat < s.cap.toNat) →
    (∀ f ∈ s.portP.flight.toList, isForceWrite f.op = false) →
    (∀ len : Half, s.canAccept .consumer (.get len) →
      repeatExec (.get len) (getCount len (s.snapshot .consumer false) + 2) s =
        .next ((atomicGet len (s.accept .consumer)).1.respond .consumer (atomicGet len (s.accept .consumer)).2)) ∧
      (s.canAccept .consumer .getchar →
        repeatExec .getchar (getcharCount (s.snapshot .consumer false) + 2) s =
          .next ((atomicGetchar (s.accept .consumer)).1.respond .consumer (atomicGetchar (s.accept .consumer)).2)) ∧
      (s.canAccept .consumer .peek →
        repeatExec .peek 2 s =
          .next ((atomicPeek (s.accept .consumer)).1.respond .consumer (atomicPeek (s.accept .consumer)).2))

/-- R39, R166, R167, R169, on a block that meets the register invariants: the atomic reading of `PUT` appends to the
content the first payload bytes, as many as its response says, and leaves the read cursor. That count is at most `len`
and at most the free length, and under `fresh` the smaller of the two. -/
def Obligations.PutAppendsToContent : Prop :=
  ∀ (s : State) (len : Half) (d : List Byte), s.initedOk → s.staleRcOk → s.cfg.valid = true → d.length = len.toNat →
    (atomicPut len d s).1.content = s.content ++ (d.take (atomicPut len d s).2.r0.toNat).map some ∧
      (atomicPut len d s).1.rc = s.rc ∧
      (atomicPut len d s).2.r0.toNat ≤ min len.toNat (freeLen s.wc s.rc s.cap.toNat) ∧
      (s.cfg.cursorView = .fresh →
        (atomicPut len d s).2.r0.toNat = min len.toNat (freeLen s.wc s.rc s.cap.toNat))

/-- R173, R178, R179, on a block that meets the register invariants: after the atomic reading of `PUT_FORCE` of `D` on
content `B` the content is `B ++ D`, less the oldest bytes beyond `cap`; the response is `min(len, cap)` whether or not
it overwrote. -/
def Obligations.PutForceKeepsNewestBytes : Prop :=
  ∀ (s : State) (len : Half) (d : List Byte), s.initedOk → s.cfg.valid = true → d.length = len.toNat →
    (atomicPutForce len d s).1.content =
        (s.content ++ d.map some).drop (s.content.length + d.length - s.cap.toNat) ∧
      (atomicPutForce len d s).2.r0.toNat = min len.toNat s.cap.toNat

/-- R39, R186, R187, on a block that meets the register invariants: the atomic reading of `GET` returns the oldest bytes
in arrival order, as many as `R0` says, and takes exactly those from the front of the content; no cell changes. That
count is at most `len` and at most the data length, and under `fresh` the smaller of the two. -/
def Obligations.GetTakesOldestBytes : Prop :=
  ∀ (s : State) (len : Half), s.initedOk → s.staleWcOk → s.cfg.valid = true → (∀ x ∈ s.content, x.isSome = true) →
    s.content = (atomicGet len s).2.payload.map some ++ (atomicGet len s).1.content ∧
      (atomicGet len s).2.payload.length = (atomicGet len s).2.r0.toNat ∧
      (atomicGet len s).2.r0.toNat ≤ min len.toNat (dataLen s.wc s.rc s.cap.toNat) ∧
      (s.cfg.cursorView = .fresh →
        (atomicGet len s).2.r0.toNat = min len.toNat (dataLen s.wc s.rc s.cap.toNat)) ∧
      (atomicGet len s).1.mem = s.mem

/-- R193, R194, under `fresh`, in atomic readings: two `PEEK`s with no commit by the producer between them expose all
buffered bytes, in order, as two windows of cells, the second starting at cell 0; a third answers 0. -/
def Obligations.TwoPeeksExposeEverything : Prop :=
  ∀ s : State, s.initedOk → s.cfg.valid = true → s.cfg.cursorView = .fresh →
    (List.range (atomicPeek s).2.r0.toNat).map
          (fun i => Memory.read? s.mem ((atomicPeek s).2.r1.toNat + i)) ++
        (List.range (atomicPeek (atomicPeek s).1).2.r0.toNat).map (fun i => Memory.read? s.mem i) = s.content ∧
      (atomicPeek (atomicPeek (atomicPeek s).1).1).2.r0 = 0 ∧ (atomicPeek (atomicPeek s).1).1.mem = s.mem ∧
      (atomicPeek (atomicPeek s).1).2.r1 = 0

/-- R207, R208, in atomic readings: `PUTCHAR b` is `PUT 1, [b]`: the same state and response; `free_len = 0` is the same
condition as `status = FULL`; on a full buffer `PUTCHAR` answers 0 and leaves cells and cursors as they were. Under
either view. -/
def Obligations.PutcharEqualsPutOfOne : Prop :=
  ∀ (s : State) (b : Byte), s.initedOk → s.staleRcOk →
    (freeLen s.wc s.rc s.cap.toNat = 0 ↔ status s.wc s.rc = .full) ∧ atomicPutchar b s = atomicPut 1 [b] s ∧
      (status s.wc s.rc = .full →
        (atomicPutchar b s).2 = { r0 := 0, r1 := 0, payload := [] } ∧ (atomicPutchar b s).1.wc = s.wc ∧
          (atomicPutchar b s).1.rc = s.rc ∧ (atomicPutchar b s).1.mem = s.mem)

/-- R215, R217, in atomic readings: `PUTCHAR_FORCE b` is `PUT_FORCE 1, [b]` and answers 1 in every initialised state;
when the buffer is not full it is `PUTCHAR b` (under `fresh`: a `PUTCHAR` that sees an older read cursor may find the
buffer full). -/
def Obligations.PutcharForceEqualsPutForceOfOne : Prop :=
  ∀ (s : State) (b : Byte), s.initedOk →
    atomicPutcharForce b s = atomicPutForce 1 [b] s ∧
      (atomicPutcharForce b s).2 = { r0 := 1, r1 := 0, payload := [] } ∧
      (s.cfg.cursorView = .fresh → status s.wc s.rc ≠ .full → atomicPutcharForce b s = atomicPutchar b s)

/-- R211, in atomic readings: `GETCHAR` is `GET 1` with the byte in `R1`: the same state, the same count; `data_len = 0`
is the same condition as `status = EMPTY`. Under either view. -/
def Obligations.GetcharEqualsGetOfOne : Prop :=
  ∀ s : State, s.initedOk → s.staleWcOk →
    (dataLen s.wc s.rc s.cap.toNat = 0 ↔ status s.wc s.rc = .empty) ∧
      (atomicGetchar s).1 = (atomicGet 1 s).1 ∧ (atomicGetchar s).2.r0 = (atomicGet 1 s).2.r0 ∧
      (atomicGet 1 s).2.payload.map (fun b => b.setWidth 16) =
        (if (atomicGetchar s).2.r0 = 0 then [] else [(atomicGetchar s).2.r1])

/-- R216, in the atomic reading: the lap bits of `PUTCHAR_FORCE` on a full buffer: before the last cell neither lap
changes and both indices step; at the last cell both laps flip and both indices go to 0. In both cases the laps still
differ, and the source's test gives the same read cursor. -/
def Obligations.PutcharForceOnFullStepsBoth : Prop :=
  ∀ (s : State) (b : Byte), s.initedOk → s.cfg.valid = true → status s.wc s.rc = .full →
    (s.wc.idx.toNat < s.cap.toNat - 1 →
        (atomicPutcharForce b s).1.wc = { lap := s.wc.lap, idx := s.wc.idx + 1 } ∧
          (atomicPutcharForce b s).1.rc = { lap := s.rc.lap, idx := s.wc.idx + 1 }) ∧
      (s.wc.idx.toNat = s.cap.toNat - 1 →
        (atomicPutcharForce b s).1.wc = { lap := !s.wc.lap, idx := 0 } ∧
          (atomicPutcharForce b s).1.rc = { lap := !s.rc.lap, idx := 0 }) ∧
      (atomicPutcharForce b s).1.wc.lap ≠ (atomicPutcharForce b s).1.rc.lap ∧
      (atomicPutcharForce b s).1.rc = forcedReadBySource (atomicPutcharForce b s).1.wc s.rc

/-! ### The machine -/

/-- R61, R67, R104: when the port scheduled is idle and its own agent presents a command whose word the port decodes,
the step is `exec` of that instruction, the schedule one entry further and `turn` that port. -/
def Obligations.StepRunsDecodedInstruction : Prop :=
  ∀ (s : State) (p : Port) (rest : List Event) (c : Command) (more : List Command) (i : Instr),
    s.sched = .port p :: rest → (s.port p).flight = none → (s.port p).pending = c :: more → s.agentWaits p = false →
    c.agent = s.cfg.agentOf p → decode p c.word = .ok i →
    step s = exec i { s with sched := rest, turn := p }

/-- R64, R65, R77: when the port scheduled has an operation in flight, the step is the next step of that operation,
whatever is presented. -/
def Obligations.StepContinuesOperationInFlight : Prop :=
  ∀ (s : State) (p : Port) (rest : List Event) (f : Flight), s.sched = .port p :: rest →
    (s.port p).flight = some f → step s = exec f.op { s with sched := rest, turn := p }

/-- R102, R229, R231: an illegal word is a no-op with the all-zero response and no effect on any register or cell; only
under `assert` it is recorded. A `PUT` or `PUT_FORCE` opcode with the wrong payload length is set apart (X1 comes
first). -/
def Obligations.IllegalCommandDoesNothing : Prop :=
  ∀ (s : State) (p : Port) (rest : List Event) (c : Command) (more : List Command) (why : Illegal),
    s.sched = .port p :: rest → (s.port p).flight = none → (s.port p).pending = c :: more → s.agentWaits p = false →
    c.agent = s.cfg.agentOf p → decode p c.word = .illegal why →
    (carriesPayload c.word = true → c.payload.length = (fieldArg c.word).toNat) →
    ∃ t, step s = .next t ∧ sameRegisters s t ∧ t.mem = s.mem ∧
      answeredAtOnce p { r0 := 0, r1 := 0, payload := [] } s t ∧
      (s.cfg.assertMode = .degrade → t.faults = s.faults) ∧
      (s.cfg.assertMode = .assert → .illegalCommand p c.word ∈ t.faults)

/-- R97, R230, R231, R243: a `PUT` or `PUT_FORCE` whose payload has not exactly `ARG` bytes, and any other legal command
with a payload, is refused as `MalformedPayload`; so is an illegal word with the opcode of `PUT` (1000) or `PUT_FORCE`
(1001) and other than `ARG` payload bytes, as the payload is tested first (both log entry 10). A command that a second
agent presents at a port is refused as `ExtraAgent`, whatever its word and payload (log entry 25). -/
def Obligations.MalformedAndForeignCommandsRefused : Prop :=
  (∀ (s : State) (len : Half) (i : Instr), i = .put len ∨ i = .putForce len → s.portP.flight = none →
      (s.presented .producer).length ≠ len.toNat →
      exec i s = .refused (.malformedPayload .producer (encode i) (s.presented .producer).length)) ∧
    (∀ (s : State) (i : Instr), (∀ len, i ≠ .put len ∧ i ≠ .putForce len) → (s.port (s.portOf i)).flight = none →
      s.presented (s.portOf i) ≠ [] →
      exec i s = .refused (.malformedPayload (s.portOf i) (encode i) (s.presented (s.portOf i)).length)) ∧
    (∀ (s : State) (p : Port) (rest : List Event) (c : Command) (more : List Command) (why : Illegal),
      s.sched = .port p :: rest → (s.port p).flight = none → (s.port p).pending = c :: more →
      s.agentWaits p = false → c.agent = s.cfg.agentOf p → decode p c.word = .illegal why →
      fieldOpc c.word = 8 ∨ fieldOpc c.word = 9 → c.payload.length ≠ (fieldArg c.word).toNat →
      step s = .refused (.malformedPayload p c.word c.payload.length)) ∧
    ∀ (s : State) (p : Port) (rest : List Event) (c : Command) (more : List Command), s.sched = .port p :: rest →
      (s.port p).flight = none → (s.port p).pending = c :: more → s.agentWaits p = false →
      c.agent ≠ s.cfg.agentOf p → step s = .refused (.extraAgent p)

/-- R67, R261: with nothing scheduled, some port with an enabled step takes it, and when no port has one the block does
nothing. Which port is a free value; that the schedule is held as a list and so continued is the model's choice (log
entry 5). -/
def Obligations.UnscheduledStepIsSomeEnabledPort : Prop :=
  ∀ s : State, s.sched = [] →
    ((∀ p, s.enabled p = false) → step s = .next s) ∧
      ((∃ p, s.enabled p = true) →
        ∃ p, s.enabled p = true ∧ step s = step { s with sched := [.port p], draws := s.draws + 1 })

/-- R40, R260: a power-on reset, at any instant, leaves the block UNINIT with both cursors (0, 0), no cell written,
every port idle, no operation in flight answered by a new response, and no fault recorded. That the responses given
before it stay, being outside the block, is the model's choice (log entry 17). -/
def Obligations.PowerOnDiscardsOperationsInFlight : Prop :=
  ∀ (s : State) (rest : List Event), s.sched = .powerOn :: rest →
    ∃ t, step s = .next t ∧ t.inited = false ∧ t.cap = 0 ∧ t.wc = { lap := false, idx := 0 } ∧
      t.rc = { lap := false, idx := 0 } ∧ (∀ x, Memory.read? t.mem x = none) ∧ t.faults = [] ∧ t.cfg = s.cfg ∧
      ∀ p, (t.port p).flight = none ∧ (t.port p).responses = (s.port p).responses

/-- R40, R260: the state after reset has the power-on values, and the invariant holds there. -/
def Obligations.ResetMeetsInvariant : Prop :=
  State.reset.inited = false ∧ State.reset.cap = 0 ∧ State.reset.wc = { lap := false, idx := 0 } ∧
    State.reset.rc = { lap := false, idx := 0 } ∧ State.reset.mem = [] ∧ State.reset.faults = [] ∧
    (∀ p, (State.reset.port p).flight = none) ∧ State.reset.Inv ∧ State.reset.DataInv

/-- R22, R34, R36, R66, R68, R69, R71: every step keeps the invariant: the storage in its form, and, while no race is
recorded, the legal capacity, the index range, the lap order, the windows, and what the operations in flight may rely
on. -/
def Obligations.StepKeepsInvariant : Prop :=
  ∀ s t : State, s.Inv → step s = .next t → t.Inv

/-- R39, R64, R66, R69, R79: beside the invariant, every step keeps the data: every buffered cell is written, what an
operation in flight has stored or read is what the cells hold. -/
def Obligations.StepKeepsBufferedData : Prop :=
  ∀ s t : State, s.Inv → s.DataInv → step s = .next t → t.DataInv

/-- R7, R226: no step changes the configuration, and nothing but a power-on reset removes a recorded fault. -/
def Obligations.StepKeepsConfigurationAndFaults : Prop :=
  ∀ s t : State, step s = .next t →
    t.cfg = s.cfg ∧ (s.sched.head? ≠ some .powerOn → ∀ f ∈ s.faults, f ∈ t.faults)

/-- R26, R38: while no race is recorded, only `INIT`, `CREATE` and `DESTROY` write `inited` and `cap`; only they,
`RESET` and the write operations write `wc`; only lifecycle operations, `GET`, `GETCHAR`, `PEEK` and the force writes
write `rc`; only the write operations write the storage. -/
def Obligations.OnlyOwnersWriteState : Prop :=
  ∀ (s t : State) (i : Instr), s.Inv → s.raceFree → exec i s = .next t →
    (t.inited ≠ s.inited ∨ t.cap ≠ s.cap → isLifecycle i = true ∧ i ≠ .reset) ∧
      (t.wc ≠ s.wc → isLifecycle i = true ∨ writesCells i = true) ∧
      (t.rc ≠ s.rc → isLifecycle i = true ∨ movesReadCursor i = true ∨ isForceWrite i = true) ∧
      (t.mem ≠ s.mem → writesCells i = true)

/-- R61, R77, R92: an instruction touches the latches and channels of its own port only, so no step of another port
cancels or delays an operation in flight. -/
def Obligations.OtherPortsUntouched : Prop :=
  ∀ (s t : State) (i : Instr) (p : Port), exec i s = .next t → p ≠ s.portOf i → t.port p = s.port p

/-- R66, R67, R77: an operation in flight always has a next step: under the invariant it answers a next state, by moving
one more byte or by committing with one response; it is never blocked and never stops with a fault. -/
def Obligations.OperationInFlightProgresses : Prop :=
  ∀ (s : State) (p : Port) (f : Flight), s.Inv → s.raceFree → (s.port p).flight = some f →
    ∃ t, exec f.op s = .next t ∧
      ((f.k < f.plan.n ∧ ∃ g, (t.port p).flight = some g ∧ g.op = f.op ∧ g.plan = f.plan ∧ g.k = f.k + 1) ∨
        ((t.port p).flight = none ∧ (f.op = .peek ∨ f.k = f.plan.n) ∧
          ∃ r, (t.port p).responses = (s.port p).responses ++ [r]))
end

