-- ==== Sys2Proof/Laws/Decode.lean ====
section
/-! SUPPORT. The fields of an assembled command word (R94). -/

namespace Sys2Proof

/-- Bits 31:28 of an assembled word (R94). -/
@[simp] theorem fieldOpc_assemble (opc : BitVec 4) (arg : Half) (byte : Byte) :
    fieldOpc (assemble opc arg byte) = opc := by
  refine BitVec.eq_of_getLsbD_eq fun i hi => ?_
  simp only [fieldOpc, assemble, BitVec.getLsbD_extractLsb', BitVec.getLsbD_append, hi, decide_true, Bool.true_and]
  simp

/-- Bits 27:24 of an assembled word are 0 (R94). -/
@[simp] theorem fieldRsv_assemble (opc : BitVec 4) (arg : Half) (byte : Byte) :
    fieldRsv (assemble opc arg byte) = 0 := by
  refine BitVec.eq_of_getLsbD_eq fun i hi => ?_
  simp only [fieldRsv, assemble, BitVec.getLsbD_extractLsb', BitVec.getLsbD_append, hi, decide_true, Bool.true_and]
  have h1 : 24 + i < 4 + (16 + 8) := by omega
  simp [h1]

/-- Bits 23:8 of an assembled word (R94). -/
@[simp] theorem fieldArg_assemble (opc : BitVec 4) (arg : Half) (byte : Byte) :
    fieldArg (assemble opc arg byte) = arg := by
  refine BitVec.eq_of_getLsbD_eq fun i hi => ?_
  simp only [fieldArg, assemble, BitVec.getLsbD_extractLsb', BitVec.getLsbD_append, hi, decide_true, Bool.true_and]
  have h1 : 8 + i < 4 + (16 + 8) := by omega
  have h2 : 8 + i < 16 + 8 := by omega
  simp [h1, h2]

/-- Bits 7:0 of an assembled word (R94). -/
@[simp] theorem fieldByte_assemble (opc : BitVec 4) (arg : Half) (byte : Byte) :
    fieldByte (assemble opc arg byte) = byte := by
  refine BitVec.eq_of_getLsbD_eq fun i hi => ?_
  simp only [fieldByte, assemble, BitVec.getLsbD_extractLsb', BitVec.getLsbD_append, hi, decide_true, Bool.true_and]
  have h1 : i < 28 := by omega
  have h2 : i < 24 := by omega
  simp [h1, h2, hi]

end Sys2Proof
end

