-- ==== Sys2Proof/Laws/Memory.lean ====
section
/-! SUPPORT. The storage: a read after a write, and the canonical form that every storage operation keeps. -/

namespace Sys2Proof.Machine

/-- A read of the cell just written gives the byte written (R51, R52). -/
@[simp] theorem Memory.read?_write_same (m : Memory) (i : Nat) (v : Byte) :
    Memory.read? (Memory.write m i v) i = some v := by
  induction m with
  | nil => simp [Memory.write, Memory.read?]
  | cons c m ih =>
    obtain ⟨a, b⟩ := c
    unfold Memory.write
    split
    · simp [Memory.read?]
    · split
      · simp [Memory.read?]
      · simpa [Memory.read?, ‹¬a = i›] using ih

/-- A write leaves every other cell alone (R52). -/
theorem Memory.read?_write_other (m : Memory) {i j : Nat} (v : Byte) (h : j ≠ i) :
    Memory.read? (Memory.write m i v) j = Memory.read? m j := by
  induction m with
  | nil => simp [Memory.write, Memory.read?, h.symm]
  | cons c m ih =>
    obtain ⟨a, b⟩ := c
    unfold Memory.write
    split
    · simp [Memory.read?, h.symm]
    · split
      · subst_vars
        simp [Memory.read?, h.symm]
      · simp only [Memory.read?, ih]

/-- The cells listed after a write are the cell written and some of those listed before. -/
theorem Memory.mem_write {m : Memory} {i : Nat} {v : Byte} {c : Host.Cell} (h : c ∈ Memory.write m i v) :
    c = (i, v) ∨ c ∈ m := by
  induction m with
  | nil => exact .inl (by simpa [Memory.write] using h)
  | cons d m ih =>
    obtain ⟨a, b⟩ := d
    unfold Memory.write at h
    split at h
    · simpa using h
    · split at h
      · simp only [List.mem_cons] at h ⊢
        tauto
      · simp only [List.mem_cons] at h ⊢
        rcases h with h | h
        · exact .inr (.inl h)
        · exact (ih h).imp id .inr

/-- A write keeps the canonical form. -/
theorem Memory.write_keeps_wf {m : Memory} (i : Nat) (v : Byte) (h : Memory.wf m) : Memory.wf (Memory.write m i v) := by
  induction m with
  | nil => simp [Memory.write]
  | cons d m ih =>
    obtain ⟨a, b⟩ := d
    have hm := List.pairwise_cons.mp h
    unfold Memory.write
    split
    · refine List.pairwise_cons.mpr ⟨fun c hc => ?_, h⟩
      rcases List.mem_cons.mp hc with rfl | hc
      · assumption
      · exact Nat.lt_trans ‹i < a› (hm.1 c hc)
    · split
      · subst_vars
        exact List.pairwise_cons.mpr ⟨hm.1, hm.2⟩
      · refine List.pairwise_cons.mpr ⟨fun c hc => ?_, ih hm.2⟩
        rcases Memory.mem_write hc with rfl | hc
        · have := ‹¬i < a›
          have := ‹¬a = i›
          simp only
          omega
        · exact hm.1 c hc

/-- Storing a byte keeps the canonical form. -/
theorem State.storeByte_keeps_wf (s : State) (i : Nat) (v : Byte) (h : Memory.wf s.mem) :
    Memory.wf (s.storeByte i v).mem :=
  Memory.write_keeps_wf i v h

/-- Storing a run of bytes keeps the canonical form. -/
theorem writeAll_keeps_wf (c : Cursor) (cap k : Nat) (bs : List Byte) {m : Memory} (h : Memory.wf m) :
    Memory.wf (writeAll c cap k bs m) := by
  induction bs generalizing k m with
  | nil => exact h
  | cons b bs ih => exact ih (k + 1) (Memory.write_keeps_wf _ b h)

/-- A power-on reset leaves no cell written, which is canonical (R260). -/
theorem State.powerOn_wf (s : State) : Memory.wf s.powerOn.mem := List.Pairwise.nil

/-- The storage after reset is canonical. -/
theorem State.reset_wf : Memory.wf State.reset.mem := List.Pairwise.nil

end Sys2Proof.Machine
end

