-- ==== Sys2Proof/Laws/Multiplexer.lean ====
section
/-! SUPPORT. The comparator and the multiplexer in arithmetic: what `status`, `dataLen`, `addr` and `adv` are in each of
their cases, with the narrowing of an index to its register resolved once. -/

namespace Sys2Proof.Machine

/-- Narrowing to an index register loses nothing below `2 ^ 15` (R58). -/
theorem idx_toNat_ofNat {n : Nat} (h : n < 32768) : (BitVec.ofNat 15 n).toNat = n := by
  rw [BitVec.toNat_ofNat]
  exact Nat.mod_eq_of_lt h

/-- `adv` inside the storage: the lap stays and the index moves (R55, R168). -/
theorem adv_inside {c : Cursor} {n cap : Nat} (h : c.idx.toNat + n < cap) :
    adv c n cap = { lap := c.lap, idx := BitVec.ofNat 15 (c.idx.toNat + n) } := by
  simp [adv, Nat.not_le.mpr h]

/-- `adv` that reaches or passes the end: the lap flips and the index wraps (R55, R168). -/
theorem adv_wraps {c : Cursor} {n cap : Nat} (h : cap ≤ c.idx.toNat + n) :
    adv c n cap = { lap := !c.lap, idx := BitVec.ofNat 15 (c.idx.toNat + n - cap) } := by
  simp [adv, h]

/-- The index of an advanced cursor, as a number (R55). -/
theorem adv_idx_toNat {c : Cursor} {n cap : Nat} (hc : c.idx.toNat < cap) (hn : n ≤ cap) (hcap : cap < 32768) :
    (adv c n cap).idx.toNat = if cap ≤ c.idx.toNat + n then c.idx.toNat + n - cap else c.idx.toNat + n := by
  unfold adv
  split
  · exact idx_toNat_ofNat (by omega)
  · exact idx_toNat_ofNat (by omega)

/-- The lap of an advanced cursor (R55). -/
theorem adv_lap (c : Cursor) (n cap : Nat) :
    (adv c n cap).lap = if cap ≤ c.idx.toNat + n then !c.lap else c.lap := by
  unfold adv
  split <;> rfl

/-- Two cursors have equal indices exactly when the numbers are equal. -/
theorem idx_eq_iff (a b : Cursor) : a.idx = b.idx ↔ a.idx.toNat = b.idx.toNat := BitVec.toNat_inj.symm

/-- The number of buffered bytes, case by case (R31). -/
theorem dataLen_eq (w r : Cursor) (cap : Nat) :
    dataLen w r cap =
      if w.idx.toNat = r.idx.toNat then (if w.lap = r.lap then 0 else cap)
      else if r.idx.toNat < w.idx.toNat then w.idx.toNat - r.idx.toNat
      else cap - (r.idx.toNat - w.idx.toNat) := by
  unfold dataLen status
  simp only [idx_eq_iff]
  split_ifs <;> rfl

end Sys2Proof.Machine
end

