-- ==== Sys2Proof/Laws/State.lean ====
section
/-! SUPPORT. What each named update of the state leaves and sets, field by field, so that no later proof unfolds a record
update. -/

namespace Sys2Proof.Machine

variable (s : State)

/-! ### setPort -/

@[simp] theorem State.setPort_cfg (p : Port) (x : PortState) : (s.setPort p x).cfg = s.cfg := rfl
@[simp] theorem State.setPort_inited (p : Port) (x : PortState) : (s.setPort p x).inited = s.inited := rfl
@[simp] theorem State.setPort_cap (p : Port) (x : PortState) : (s.setPort p x).cap = s.cap := rfl
@[simp] theorem State.setPort_wc (p : Port) (x : PortState) : (s.setPort p x).wc = s.wc := rfl
@[simp] theorem State.setPort_rc (p : Port) (x : PortState) : (s.setPort p x).rc = s.rc := rfl
@[simp] theorem State.setPort_mem (p : Port) (x : PortState) : (s.setPort p x).mem = s.mem := rfl
@[simp] theorem State.setPort_faults (p : Port) (x : PortState) : (s.setPort p x).faults = s.faults := rfl
@[simp] theorem State.setPort_staleWc (p : Port) (x : PortState) : (s.setPort p x).staleWc = s.staleWc := rfl
@[simp] theorem State.setPort_staleRc (p : Port) (x : PortState) : (s.setPort p x).staleRc = s.staleRc := rfl
@[simp] theorem State.setPort_turn (p : Port) (x : PortState) : (s.setPort p x).turn = s.turn := rfl
@[simp] theorem State.setPort_sched (p : Port) (x : PortState) : (s.setPort p x).sched = s.sched := rfl
@[simp] theorem State.setPort_draws (p : Port) (x : PortState) : (s.setPort p x).draws = s.draws := rfl

/-! ### setFlight -/

@[simp] theorem State.setFlight_cfg (p : Port) (f : Option Flight) : (s.setFlight p f).cfg = s.cfg := rfl
@[simp] theorem State.setFlight_inited (p : Port) (f : Option Flight) : (s.setFlight p f).inited = s.inited := rfl
@[simp] theorem State.setFlight_cap (p : Port) (f : Option Flight) : (s.setFlight p f).cap = s.cap := rfl
@[simp] theorem State.setFlight_wc (p : Port) (f : Option Flight) : (s.setFlight p f).wc = s.wc := rfl
@[simp] theorem State.setFlight_rc (p : Port) (f : Option Flight) : (s.setFlight p f).rc = s.rc := rfl
@[simp] theorem State.setFlight_mem (p : Port) (f : Option Flight) : (s.setFlight p f).mem = s.mem := rfl
@[simp] theorem State.setFlight_faults (p : Port) (f : Option Flight) : (s.setFlight p f).faults = s.faults := rfl
@[simp] theorem State.setFlight_staleWc (p : Port) (f : Option Flight) : (s.setFlight p f).staleWc = s.staleWc := rfl
@[simp] theorem State.setFlight_staleRc (p : Port) (f : Option Flight) : (s.setFlight p f).staleRc = s.staleRc := rfl
@[simp] theorem State.setFlight_turn (p : Port) (f : Option Flight) : (s.setFlight p f).turn = s.turn := rfl
@[simp] theorem State.setFlight_sched (p : Port) (f : Option Flight) : (s.setFlight p f).sched = s.sched := rfl
@[simp] theorem State.setFlight_draws (p : Port) (f : Option Flight) : (s.setFlight p f).draws = s.draws := rfl

/-! ### respond -/

@[simp] theorem State.respond_cfg (p : Port) (r : Response) : (s.respond p r).cfg = s.cfg := rfl
@[simp] theorem State.respond_inited (p : Port) (r : Response) : (s.respond p r).inited = s.inited := rfl
@[simp] theorem State.respond_cap (p : Port) (r : Response) : (s.respond p r).cap = s.cap := rfl
@[simp] theorem State.respond_wc (p : Port) (r : Response) : (s.respond p r).wc = s.wc := rfl
@[simp] theorem State.respond_rc (p : Port) (r : Response) : (s.respond p r).rc = s.rc := rfl
@[simp] theorem State.respond_mem (p : Port) (r : Response) : (s.respond p r).mem = s.mem := rfl
@[simp] theorem State.respond_faults (p : Port) (r : Response) : (s.respond p r).faults = s.faults := rfl
@[simp] theorem State.respond_staleWc (p : Port) (r : Response) : (s.respond p r).staleWc = s.staleWc := rfl
@[simp] theorem State.respond_staleRc (p : Port) (r : Response) : (s.respond p r).staleRc = s.staleRc := rfl
@[simp] theorem State.respond_turn (p : Port) (r : Response) : (s.respond p r).turn = s.turn := rfl
@[simp] theorem State.respond_sched (p : Port) (r : Response) : (s.respond p r).sched = s.sched := rfl
@[simp] theorem State.respond_draws (p : Port) (r : Response) : (s.respond p r).draws = s.draws := rfl

/-! ### accept -/

@[simp] theorem State.accept_cfg (p : Port) : (s.accept p).cfg = s.cfg := rfl
@[simp] theorem State.accept_inited (p : Port) : (s.accept p).inited = s.inited := rfl
@[simp] theorem State.accept_cap (p : Port) : (s.accept p).cap = s.cap := rfl
@[simp] theorem State.accept_wc (p : Port) : (s.accept p).wc = s.wc := rfl
@[simp] theorem State.accept_rc (p : Port) : (s.accept p).rc = s.rc := rfl
@[simp] theorem State.accept_mem (p : Port) : (s.accept p).mem = s.mem := rfl
@[simp] theorem State.accept_faults (p : Port) : (s.accept p).faults = s.faults := rfl
@[simp] theorem State.accept_staleWc (p : Port) : (s.accept p).staleWc = s.staleWc := rfl
@[simp] theorem State.accept_staleRc (p : Port) : (s.accept p).staleRc = s.staleRc := rfl
@[simp] theorem State.accept_turn (p : Port) : (s.accept p).turn = s.turn := rfl
@[simp] theorem State.accept_sched (p : Port) : (s.accept p).sched = s.sched := rfl
@[simp] theorem State.accept_draws (p : Port) : (s.accept p).draws = s.draws := rfl

/-! ### setTurn -/

@[simp] theorem State.setTurn_cfg (p : Port) : (s.setTurn p).cfg = s.cfg := rfl
@[simp] theorem State.setTurn_inited (p : Port) : (s.setTurn p).inited = s.inited := rfl
@[simp] theorem State.setTurn_cap (p : Port) : (s.setTurn p).cap = s.cap := rfl
@[simp] theorem State.setTurn_wc (p : Port) : (s.setTurn p).wc = s.wc := rfl
@[simp] theorem State.setTurn_rc (p : Port) : (s.setTurn p).rc = s.rc := rfl
@[simp] theorem State.setTurn_mem (p : Port) : (s.setTurn p).mem = s.mem := rfl
@[simp] theorem State.setTurn_portP (p : Port) : (s.setTurn p).portP = s.portP := rfl
@[simp] theorem State.setTurn_portC (p : Port) : (s.setTurn p).portC = s.portC := rfl
@[simp] theorem State.setTurn_portH (p : Port) : (s.setTurn p).portH = s.portH := rfl
@[simp] theorem State.setTurn_faults (p : Port) : (s.setTurn p).faults = s.faults := rfl
@[simp] theorem State.setTurn_staleWc (p : Port) : (s.setTurn p).staleWc = s.staleWc := rfl
@[simp] theorem State.setTurn_staleRc (p : Port) : (s.setTurn p).staleRc = s.staleRc := rfl
@[simp] theorem State.setTurn_sched (p : Port) : (s.setTurn p).sched = s.sched := rfl
@[simp] theorem State.setTurn_draws (p : Port) : (s.setTurn p).draws = s.draws := rfl

/-! ### raise -/

@[simp] theorem State.raise_cfg (f : RecordedFault) : (s.raise f).cfg = s.cfg := rfl
@[simp] theorem State.raise_inited (f : RecordedFault) : (s.raise f).inited = s.inited := rfl
@[simp] theorem State.raise_cap (f : RecordedFault) : (s.raise f).cap = s.cap := rfl
@[simp] theorem State.raise_wc (f : RecordedFault) : (s.raise f).wc = s.wc := rfl
@[simp] theorem State.raise_rc (f : RecordedFault) : (s.raise f).rc = s.rc := rfl
@[simp] theorem State.raise_mem (f : RecordedFault) : (s.raise f).mem = s.mem := rfl
@[simp] theorem State.raise_portP (f : RecordedFault) : (s.raise f).portP = s.portP := rfl
@[simp] theorem State.raise_portC (f : RecordedFault) : (s.raise f).portC = s.portC := rfl
@[simp] theorem State.raise_portH (f : RecordedFault) : (s.raise f).portH = s.portH := rfl
@[simp] theorem State.raise_staleWc (f : RecordedFault) : (s.raise f).staleWc = s.staleWc := rfl
@[simp] theorem State.raise_staleRc (f : RecordedFault) : (s.raise f).staleRc = s.staleRc := rfl
@[simp] theorem State.raise_turn (f : RecordedFault) : (s.raise f).turn = s.turn := rfl
@[simp] theorem State.raise_sched (f : RecordedFault) : (s.raise f).sched = s.sched := rfl
@[simp] theorem State.raise_draws (f : RecordedFault) : (s.raise f).draws = s.draws := rfl

/-! ### raiseIf -/

@[simp] theorem State.raiseIf_cfg (o : Option RecordedFault) : (s.raiseIf o).cfg = s.cfg := by cases o <;> rfl
@[simp] theorem State.raiseIf_inited (o : Option RecordedFault) : (s.raiseIf o).inited = s.inited := by cases o <;> rfl
@[simp] theorem State.raiseIf_cap (o : Option RecordedFault) : (s.raiseIf o).cap = s.cap := by cases o <;> rfl
@[simp] theorem State.raiseIf_wc (o : Option RecordedFault) : (s.raiseIf o).wc = s.wc := by cases o <;> rfl
@[simp] theorem State.raiseIf_rc (o : Option RecordedFault) : (s.raiseIf o).rc = s.rc := by cases o <;> rfl
@[simp] theorem State.raiseIf_mem (o : Option RecordedFault) : (s.raiseIf o).mem = s.mem := by cases o <;> rfl
@[simp] theorem State.raiseIf_portP (o : Option RecordedFault) : (s.raiseIf o).portP = s.portP := by cases o <;> rfl
@[simp] theorem State.raiseIf_portC (o : Option RecordedFault) : (s.raiseIf o).portC = s.portC := by cases o <;> rfl
@[simp] theorem State.raiseIf_portH (o : Option RecordedFault) : (s.raiseIf o).portH = s.portH := by cases o <;> rfl
@[simp] theorem State.raiseIf_staleWc (o : Option RecordedFault) : (s.raiseIf o).staleWc = s.staleWc := by cases o <;> rfl
@[simp] theorem State.raiseIf_staleRc (o : Option RecordedFault) : (s.raiseIf o).staleRc = s.staleRc := by cases o <;> rfl
@[simp] theorem State.raiseIf_turn (o : Option RecordedFault) : (s.raiseIf o).turn = s.turn := by cases o <;> rfl
@[simp] theorem State.raiseIf_sched (o : Option RecordedFault) : (s.raiseIf o).sched = s.sched := by cases o <;> rfl
@[simp] theorem State.raiseIf_draws (o : Option RecordedFault) : (s.raiseIf o).draws = s.draws := by cases o <;> rfl

/-! ### raiseAsserting -/

@[simp] theorem State.raiseAsserting_cfg (f : RecordedFault) : (s.raiseAsserting f).cfg = s.cfg := by unfold State.raiseAsserting; split <;> rfl
@[simp] theorem State.raiseAsserting_inited (f : RecordedFault) : (s.raiseAsserting f).inited = s.inited := by unfold State.raiseAsserting; split <;> rfl
@[simp] theorem State.raiseAsserting_cap (f : RecordedFault) : (s.raiseAsserting f).cap = s.cap := by unfold State.raiseAsserting; split <;> rfl
@[simp] theorem State.raiseAsserting_wc (f : RecordedFault) : (s.raiseAsserting f).wc = s.wc := by unfold State.raiseAsserting; split <;> rfl
@[simp] theorem State.raiseAsserting_rc (f : RecordedFault) : (s.raiseAsserting f).rc = s.rc := by unfold State.raiseAsserting; split <;> rfl
@[simp] theorem State.raiseAsserting_mem (f : RecordedFault) : (s.raiseAsserting f).mem = s.mem := by unfold State.raiseAsserting; split <;> rfl
@[simp] theorem State.raiseAsserting_portP (f : RecordedFault) : (s.raiseAsserting f).portP = s.portP := by unfold State.raiseAsserting; split <;> rfl
@[simp] theorem State.raiseAsserting_portC (f : RecordedFault) : (s.raiseAsserting f).portC = s.portC := by unfold State.raiseAsserting; split <;> rfl
@[simp] theorem State.raiseAsserting_portH (f : RecordedFault) : (s.raiseAsserting f).portH = s.portH := by unfold State.raiseAsserting; split <;> rfl
@[simp] theorem State.raiseAsserting_staleWc (f : RecordedFault) : (s.raiseAsserting f).staleWc = s.staleWc := by unfold State.raiseAsserting; split <;> rfl
@[simp] theorem State.raiseAsserting_staleRc (f : RecordedFault) : (s.raiseAsserting f).staleRc = s.staleRc := by unfold State.raiseAsserting; split <;> rfl
@[simp] theorem State.raiseAsserting_turn (f : RecordedFault) : (s.raiseAsserting f).turn = s.turn := by unfold State.raiseAsserting; split <;> rfl
@[simp] theorem State.raiseAsserting_sched (f : RecordedFault) : (s.raiseAsserting f).sched = s.sched := by unfold State.raiseAsserting; split <;> rfl
@[simp] theorem State.raiseAsserting_draws (f : RecordedFault) : (s.raiseAsserting f).draws = s.draws := by unfold State.raiseAsserting; split <;> rfl

/-! ### violated -/

@[simp] theorem State.violated_cfg (race : Option RecordedFault) (i : Instr) : (s.violated race i).cfg = s.cfg := by cases race <;> simp [State.violated]
@[simp] theorem State.violated_inited (race : Option RecordedFault) (i : Instr) : (s.violated race i).inited = s.inited := by cases race <;> simp [State.violated]
@[simp] theorem State.violated_cap (race : Option RecordedFault) (i : Instr) : (s.violated race i).cap = s.cap := by cases race <;> simp [State.violated]
@[simp] theorem State.violated_wc (race : Option RecordedFault) (i : Instr) : (s.violated race i).wc = s.wc := by cases race <;> simp [State.violated]
@[simp] theorem State.violated_rc (race : Option RecordedFault) (i : Instr) : (s.violated race i).rc = s.rc := by cases race <;> simp [State.violated]
@[simp] theorem State.violated_mem (race : Option RecordedFault) (i : Instr) : (s.violated race i).mem = s.mem := by cases race <;> simp [State.violated]
@[simp] theorem State.violated_portP (race : Option RecordedFault) (i : Instr) : (s.violated race i).portP = s.portP := by cases race <;> simp [State.violated]
@[simp] theorem State.violated_portC (race : Option RecordedFault) (i : Instr) : (s.violated race i).portC = s.portC := by cases race <;> simp [State.violated]
@[simp] theorem State.violated_portH (race : Option RecordedFault) (i : Instr) : (s.violated race i).portH = s.portH := by cases race <;> simp [State.violated]
@[simp] theorem State.violated_staleWc (race : Option RecordedFault) (i : Instr) : (s.violated race i).staleWc = s.staleWc := by cases race <;> simp [State.violated]
@[simp] theorem State.violated_staleRc (race : Option RecordedFault) (i : Instr) : (s.violated race i).staleRc = s.staleRc := by cases race <;> simp [State.violated]
@[simp] theorem State.violated_turn (race : Option RecordedFault) (i : Instr) : (s.violated race i).turn = s.turn := by cases race <;> simp [State.violated]
@[simp] theorem State.violated_sched (race : Option RecordedFault) (i : Instr) : (s.violated race i).sched = s.sched := by cases race <;> simp [State.violated]
@[simp] theorem State.violated_draws (race : Option RecordedFault) (i : Instr) : (s.violated race i).draws = s.draws := by cases race <;> simp [State.violated]

/-! ### afterRead -/

@[simp] theorem State.afterRead_cfg (i : Nat) : (s.afterRead i).cfg = s.cfg := rfl
@[simp] theorem State.afterRead_inited (i : Nat) : (s.afterRead i).inited = s.inited := rfl
@[simp] theorem State.afterRead_cap (i : Nat) : (s.afterRead i).cap = s.cap := rfl
@[simp] theorem State.afterRead_wc (i : Nat) : (s.afterRead i).wc = s.wc := rfl
@[simp] theorem State.afterRead_rc (i : Nat) : (s.afterRead i).rc = s.rc := rfl
@[simp] theorem State.afterRead_mem (i : Nat) : (s.afterRead i).mem = s.mem := rfl
@[simp] theorem State.afterRead_portP (i : Nat) : (s.afterRead i).portP = s.portP := rfl
@[simp] theorem State.afterRead_portC (i : Nat) : (s.afterRead i).portC = s.portC := rfl
@[simp] theorem State.afterRead_portH (i : Nat) : (s.afterRead i).portH = s.portH := rfl
@[simp] theorem State.afterRead_faults (i : Nat) : (s.afterRead i).faults = s.faults := rfl
@[simp] theorem State.afterRead_staleWc (i : Nat) : (s.afterRead i).staleWc = s.staleWc := rfl
@[simp] theorem State.afterRead_staleRc (i : Nat) : (s.afterRead i).staleRc = s.staleRc := rfl
@[simp] theorem State.afterRead_turn (i : Nat) : (s.afterRead i).turn = s.turn := rfl
@[simp] theorem State.afterRead_sched (i : Nat) : (s.afterRead i).sched = s.sched := rfl

/-! ### storeByte -/

@[simp] theorem State.storeByte_cfg (i : Nat) (v : Byte) : (s.storeByte i v).cfg = s.cfg := rfl
@[simp] theorem State.storeByte_inited (i : Nat) (v : Byte) : (s.storeByte i v).inited = s.inited := rfl
@[simp] theorem State.storeByte_cap (i : Nat) (v : Byte) : (s.storeByte i v).cap = s.cap := rfl
@[simp] theorem State.storeByte_wc (i : Nat) (v : Byte) : (s.storeByte i v).wc = s.wc := rfl
@[simp] theorem State.storeByte_rc (i : Nat) (v : Byte) : (s.storeByte i v).rc = s.rc := rfl
@[simp] theorem State.storeByte_portP (i : Nat) (v : Byte) : (s.storeByte i v).portP = s.portP := rfl
@[simp] theorem State.storeByte_portC (i : Nat) (v : Byte) : (s.storeByte i v).portC = s.portC := rfl
@[simp] theorem State.storeByte_portH (i : Nat) (v : Byte) : (s.storeByte i v).portH = s.portH := rfl
@[simp] theorem State.storeByte_faults (i : Nat) (v : Byte) : (s.storeByte i v).faults = s.faults := rfl
@[simp] theorem State.storeByte_staleWc (i : Nat) (v : Byte) : (s.storeByte i v).staleWc = s.staleWc := rfl
@[simp] theorem State.storeByte_staleRc (i : Nat) (v : Byte) : (s.storeByte i v).staleRc = s.staleRc := rfl
@[simp] theorem State.storeByte_turn (i : Nat) (v : Byte) : (s.storeByte i v).turn = s.turn := rfl
@[simp] theorem State.storeByte_sched (i : Nat) (v : Byte) : (s.storeByte i v).sched = s.sched := rfl
@[simp] theorem State.storeByte_draws (i : Nat) (v : Byte) : (s.storeByte i v).draws = s.draws := rfl

/-! ### sampled -/

@[simp] theorem State.sampled_cfg (p : Port) (now : Bool) : (s.sampled p now).cfg = s.cfg := rfl
@[simp] theorem State.sampled_inited (p : Port) (now : Bool) : (s.sampled p now).inited = s.inited := rfl
@[simp] theorem State.sampled_cap (p : Port) (now : Bool) : (s.sampled p now).cap = s.cap := rfl
@[simp] theorem State.sampled_wc (p : Port) (now : Bool) : (s.sampled p now).wc = s.wc := rfl
@[simp] theorem State.sampled_rc (p : Port) (now : Bool) : (s.sampled p now).rc = s.rc := rfl
@[simp] theorem State.sampled_mem (p : Port) (now : Bool) : (s.sampled p now).mem = s.mem := rfl
@[simp] theorem State.sampled_portP (p : Port) (now : Bool) : (s.sampled p now).portP = s.portP := rfl
@[simp] theorem State.sampled_portC (p : Port) (now : Bool) : (s.sampled p now).portC = s.portC := rfl
@[simp] theorem State.sampled_portH (p : Port) (now : Bool) : (s.sampled p now).portH = s.portH := rfl
@[simp] theorem State.sampled_faults (p : Port) (now : Bool) : (s.sampled p now).faults = s.faults := rfl
@[simp] theorem State.sampled_turn (p : Port) (now : Bool) : (s.sampled p now).turn = s.turn := rfl
@[simp] theorem State.sampled_sched (p : Port) (now : Bool) : (s.sampled p now).sched = s.sched := rfl

/-! ### commitCursors -/

@[simp] theorem State.commitCursors_cfg (plan : Plan) : (s.commitCursors plan).cfg = s.cfg := rfl
@[simp] theorem State.commitCursors_inited (plan : Plan) : (s.commitCursors plan).inited = s.inited := rfl
@[simp] theorem State.commitCursors_cap (plan : Plan) : (s.commitCursors plan).cap = s.cap := rfl
@[simp] theorem State.commitCursors_mem (plan : Plan) : (s.commitCursors plan).mem = s.mem := rfl
@[simp] theorem State.commitCursors_portP (plan : Plan) : (s.commitCursors plan).portP = s.portP := rfl
@[simp] theorem State.commitCursors_portC (plan : Plan) : (s.commitCursors plan).portC = s.portC := rfl
@[simp] theorem State.commitCursors_portH (plan : Plan) : (s.commitCursors plan).portH = s.portH := rfl
@[simp] theorem State.commitCursors_faults (plan : Plan) : (s.commitCursors plan).faults = s.faults := rfl
@[simp] theorem State.commitCursors_turn (plan : Plan) : (s.commitCursors plan).turn = s.turn := rfl
@[simp] theorem State.commitCursors_sched (plan : Plan) : (s.commitCursors plan).sched = s.sched := rfl
@[simp] theorem State.commitCursors_draws (plan : Plan) : (s.commitCursors plan).draws = s.draws := rfl

/-! ### bound -/

@[simp] theorem State.bound_cfg (b : Bool) (c : Idx) : (s.bound b c).cfg = s.cfg := rfl
@[simp] theorem State.bound_mem (b : Bool) (c : Idx) : (s.bound b c).mem = s.mem := rfl
@[simp] theorem State.bound_portP (b : Bool) (c : Idx) : (s.bound b c).portP = s.portP := rfl
@[simp] theorem State.bound_portC (b : Bool) (c : Idx) : (s.bound b c).portC = s.portC := rfl
@[simp] theorem State.bound_portH (b : Bool) (c : Idx) : (s.bound b c).portH = s.portH := rfl
@[simp] theorem State.bound_faults (b : Bool) (c : Idx) : (s.bound b c).faults = s.faults := rfl
@[simp] theorem State.bound_turn (b : Bool) (c : Idx) : (s.bound b c).turn = s.turn := rfl
@[simp] theorem State.bound_sched (b : Bool) (c : Idx) : (s.bound b c).sched = s.sched := rfl
@[simp] theorem State.bound_draws (b : Bool) (c : Idx) : (s.bound b c).draws = s.draws := rfl

/-! ### powerOn -/

@[simp] theorem State.powerOn_cfg : (s.powerOn).cfg = s.cfg := rfl
@[simp] theorem State.powerOn_turn : (s.powerOn).turn = s.turn := rfl
@[simp] theorem State.powerOn_sched : (s.powerOn).sched = s.sched := rfl
@[simp] theorem State.powerOn_draws : (s.powerOn).draws = s.draws := rfl

/-! ### The fields set -/

@[simp] theorem State.setTurn_turn (p : Port) : (s.setTurn p).turn = p := rfl
@[simp] theorem State.storeByte_mem (i : Nat) (v : Byte) : (s.storeByte i v).mem = Memory.write s.mem i v := rfl
@[simp] theorem State.afterRead_draws (i : Nat) : (s.afterRead i).draws = s.draws + s.drawsAt i := rfl
@[simp] theorem State.raise_faults (f : RecordedFault) :
    (s.raise f).faults = if f ∈ s.faults then s.faults else s.faults ++ [f] := rfl
@[simp] theorem State.raiseIf_none : s.raiseIf none = s := rfl
@[simp] theorem State.raiseIf_some (f : RecordedFault) : s.raiseIf (some f) = s.raise f := rfl
@[simp] theorem State.violated_some (f : RecordedFault) (i : Instr) : s.violated (some f) i = s := rfl
@[simp] theorem State.commitCursors_wc (plan : Plan) : (s.commitCursors plan).wc = plan.newWc.getD s.wc := rfl
@[simp] theorem State.commitCursors_rc (plan : Plan) : (s.commitCursors plan).rc = plan.newRc.getD s.rc := rfl
@[simp] theorem State.commitCursors_staleWc (plan : Plan) : (s.commitCursors plan).staleWc =
    if plan.ovw then [] else remember s.cfg.cursorView s.staleWc s.wc (plan.newWc.getD s.wc) := rfl
@[simp] theorem State.commitCursors_staleRc (plan : Plan) : (s.commitCursors plan).staleRc =
    if plan.ovw then [] else remember s.cfg.cursorView s.staleRc s.rc (plan.newRc.getD s.rc) := rfl
@[simp] theorem State.bound_inited (b : Bool) (c : Idx) : (s.bound b c).inited = b := rfl
@[simp] theorem State.bound_cap (b : Bool) (c : Idx) : (s.bound b c).cap = c := rfl
@[simp] theorem State.bound_wc (b : Bool) (c : Idx) : (s.bound b c).wc = Cursor.zero := rfl
@[simp] theorem State.bound_rc (b : Bool) (c : Idx) : (s.bound b c).rc = Cursor.zero := rfl
@[simp] theorem State.bound_staleWc (b : Bool) (c : Idx) : (s.bound b c).staleWc = [] := rfl
@[simp] theorem State.bound_staleRc (b : Bool) (c : Idx) : (s.bound b c).staleRc = [] := rfl
@[simp] theorem State.powerOn_inited : s.powerOn.inited = false := rfl
@[simp] theorem State.powerOn_cap : s.powerOn.cap = 0 := rfl
@[simp] theorem State.powerOn_wc : s.powerOn.wc = Cursor.zero := rfl
@[simp] theorem State.powerOn_rc : s.powerOn.rc = Cursor.zero := rfl
@[simp] theorem State.powerOn_mem : s.powerOn.mem = [] := rfl
@[simp] theorem State.powerOn_faults : s.powerOn.faults = [] := rfl
@[simp] theorem State.powerOn_staleWc : s.powerOn.staleWc = [] := rfl
@[simp] theorem State.powerOn_staleRc : s.powerOn.staleRc = [] := rfl

/-! ### Ports -/

@[simp] theorem State.port_producer : s.port .producer = s.portP := rfl
@[simp] theorem State.port_consumer : s.port .consumer = s.portC := rfl
@[simp] theorem State.port_host : s.port .host = s.portH := rfl

@[simp] theorem State.setPort_portP (p : Port) (x : PortState) :
    (s.setPort p x).portP = if p = .producer then x else s.portP := rfl
@[simp] theorem State.setPort_portC (p : Port) (x : PortState) :
    (s.setPort p x).portC = if p = .consumer then x else s.portC := rfl
@[simp] theorem State.setPort_portH (p : Port) (x : PortState) :
    (s.setPort p x).portH = if p = .host then x else s.portH := rfl

/-- Setting a port's latches and channels sets that port and no other. -/
@[simp] theorem State.setPort_port (p q : Port) (x : PortState) :
    (s.setPort p x).port q = if q = p then x else s.port q := by
  cases p <;> cases q <;> rfl

@[simp] theorem State.setFlight_port (p q : Port) (f : Option Flight) :
    (s.setFlight p f).port q = if q = p then { s.port p with flight := f } else s.port q :=
  State.setPort_port s p q _

@[simp] theorem State.respond_port (p q : Port) (r : Response) :
    (s.respond p r).port q =
      if q = p then { s.port p with responses := (s.port p).responses ++ [r] } else s.port q :=
  State.setPort_port s p q _

@[simp] theorem State.accept_port (p q : Port) :
    (s.accept p).port q = if q = p then { s.port p with pending := (s.port p).pending.tail } else s.port q :=
  State.setPort_port s p q _

/-- The record forms of the port updates. -/
@[simp] theorem State.setFlight_portP (p : Port) (f : Option Flight) :
    (s.setFlight p f).portP = if p = .producer then { s.portP with flight := f } else s.portP := by cases p <;> rfl
@[simp] theorem State.setFlight_portC (p : Port) (f : Option Flight) :
    (s.setFlight p f).portC = if p = .consumer then { s.portC with flight := f } else s.portC := by cases p <;> rfl
@[simp] theorem State.setFlight_portH (p : Port) (f : Option Flight) :
    (s.setFlight p f).portH = if p = .host then { s.portH with flight := f } else s.portH := by cases p <;> rfl
@[simp] theorem State.respond_portP (p : Port) (r : Response) : (s.respond p r).portP =
    if p = .producer then { s.portP with responses := s.portP.responses ++ [r] } else s.portP := by cases p <;> rfl
@[simp] theorem State.respond_portC (p : Port) (r : Response) : (s.respond p r).portC =
    if p = .consumer then { s.portC with responses := s.portC.responses ++ [r] } else s.portC := by cases p <;> rfl
@[simp] theorem State.respond_portH (p : Port) (r : Response) : (s.respond p r).portH =
    if p = .host then { s.portH with responses := s.portH.responses ++ [r] } else s.portH := by cases p <;> rfl
@[simp] theorem State.accept_portP (p : Port) : (s.accept p).portP =
    if p = .producer then { s.portP with pending := s.portP.pending.tail } else s.portP := by cases p <;> rfl
@[simp] theorem State.accept_portC (p : Port) : (s.accept p).portC =
    if p = .consumer then { s.portC with pending := s.portC.pending.tail } else s.portC := by cases p <;> rfl
@[simp] theorem State.accept_portH (p : Port) : (s.accept p).portH =
    if p = .host then { s.portH with pending := s.portH.pending.tail } else s.portH := by cases p <;> rfl

@[simp] theorem State.setTurn_port (p : Port) (q : Port) : (s.setTurn p).port q = s.port q := by
  cases q <;> simp [State.port]
@[simp] theorem State.raise_port (f : RecordedFault) (q : Port) : (s.raise f).port q = s.port q := by
  cases q <;> simp [State.port]
@[simp] theorem State.raiseIf_port (o : Option RecordedFault) (q : Port) : (s.raiseIf o).port q = s.port q := by
  cases q <;> simp [State.port]
@[simp] theorem State.raiseAsserting_port (f : RecordedFault) (q : Port) : (s.raiseAsserting f).port q = s.port q := by
  cases q <;> simp [State.port]
@[simp] theorem State.violated_port (race : Option RecordedFault) (i : Instr) (q : Port) : (s.violated race i).port q = s.port q := by
  cases q <;> simp [State.port]
@[simp] theorem State.afterRead_port (i : Nat) (q : Port) : (s.afterRead i).port q = s.port q := by
  cases q <;> simp [State.port]
@[simp] theorem State.storeByte_port (i : Nat) (v : Byte) (q : Port) : (s.storeByte i v).port q = s.port q := by
  cases q <;> simp [State.port]
@[simp] theorem State.sampled_port (p : Port) (now : Bool) (q : Port) : (s.sampled p now).port q = s.port q := by
  cases q <;> simp [State.port]
@[simp] theorem State.commitCursors_port (plan : Plan) (q : Port) : (s.commitCursors plan).port q = s.port q := by
  cases q <;> simp [State.port]
@[simp] theorem State.bound_port (b : Bool) (c : Idx) (q : Port) : (s.bound b c).port q = s.port q := by
  cases q <;> simp [State.port]

/-! ### Free values and recorded faults -/

/-- A read of a cell that was written draws no free value (R51). -/
theorem State.afterRead_of_written {i : Nat} {b : Byte} (h : Memory.read? s.mem i = some b) : s.afterRead i = s := by
  simp [State.afterRead, State.drawsAt, h]

/-- A read of a cell that was written returns the byte last written (R51). -/
theorem State.byteAt_of_written {i : Nat} {b : Byte} (h : Memory.read? s.mem i = some b) : s.byteAt i = b := by
  simp [State.byteAt, h]

/-- Recording a fault adds it and keeps every other (R226). -/
theorem State.mem_raise_faults {f g : RecordedFault} : g ∈ (s.raise f).faults ↔ g = f ∨ g ∈ s.faults := by
  simp only [State.raise_faults]
  split
  · exact ⟨.inr, fun h => h.elim (fun e => e ▸ ‹_›) id⟩
  · simp [or_comm]

/-- Under `degrade` nothing is recorded (R227). -/
theorem State.raiseAsserting_degrade (f : RecordedFault) (h : s.cfg.assertMode = .degrade) :
    s.raiseAsserting f = s := by
  simp [State.raiseAsserting, h]

/-- Under `assert` the violation is recorded (R227). -/
theorem State.raiseAsserting_assert (f : RecordedFault) (h : s.cfg.assertMode = .assert) :
    s.raiseAsserting f = s.raise f := by
  simp [State.raiseAsserting, h]

/-- A sample under `fresh` sees the committed registers (R70). -/
theorem State.snapshot_fresh (p : Port) (now : Bool) (h : s.cfg.cursorView = .fresh) :
    s.snapshot p now = { cap := s.cap, wc := s.wc, rc := s.rc } := by
  simp [State.snapshot, State.mayBeStale, h]

/-- A force write's sample sees the committed registers whatever the view (R71). -/
theorem State.snapshot_now (p : Port) : s.snapshot p true = { cap := s.cap, wc := s.wc, rc := s.rc } := by
  simp [State.snapshot, State.mayBeStale]

/-- A sample on port H sees the committed registers whatever the view (R71). -/
theorem State.snapshot_host (now : Bool) : s.snapshot .host now = { cap := s.cap, wc := s.wc, rc := s.rc } := by
  simp [State.snapshot, State.mayBeStale]

/-- Whatever the view, a sample sees the committed capacity (R71). -/
@[simp] theorem State.snapshot_cap (p : Port) (now : Bool) : (s.snapshot p now).cap = s.cap := by
  unfold State.snapshot
  split <;> [(cases p <;> rfl); rfl]

/-- Whatever the view, a sample on port P sees the committed write cursor (R71). -/
@[simp] theorem State.snapshot_producer_wc (now : Bool) : (s.snapshot .producer now).wc = s.wc := by
  unfold State.snapshot
  split <;> rfl

/-- Whatever the view, a sample on port C sees the committed read cursor (R71). -/
@[simp] theorem State.snapshot_consumer_rc (now : Bool) : (s.snapshot .consumer now).rc = s.rc := by
  unfold State.snapshot
  split <;> rfl

end Sys2Proof.Machine
end

