-- ==== Sys2Proof/Laws/Ops.lean ====
section
/-! SUPPORT. One lemma per shared operation that says once everything it can do: if it answers a next state, how it came
about. Later proofs cite these and do not unfold the operation. -/

namespace Sys2Proof.Machine

/-- Accepting a command goes on exactly when the port is idle and the payload has the length the command says
(R61, R97). -/
theorem accepting_next {p : Port} {i : Instr} {s t : State} {run : List Byte → State → Result} :
    accepting p i s run = .next t ↔
      s.busy p = false ∧ (s.presented p).length = payloadLen i ∧ run (s.presented p) (s.accept p) = .next t := by
  unfold accepting
  split
  · simp [*]
  · split <;> simp_all

/-- Where a command can be accepted, accepting it is going on with it. -/
theorem accepting_eq {p : Port} {i : Instr} {s : State} {run : List Byte → State → Result} (hb : s.busy p = false)
    (hl : (s.presented p).length = payloadLen i) : accepting p i s run = run (s.presented p) (s.accept p) := by
  simp [accepting, hb, hl]

/-- The next state of a phased operation comes from its `SAMPLE`, from an `XFER`, or from its `COMMIT` (R62). -/
theorem phased_next {p : Port} {i : Instr} {sam : List Byte → State → Result} {xfer com : Flight → State → Result}
    {s t : State} (h : phased p i sam xfer com s = .next t) :
    ((s.port p).flight = none ∧ accepting p i s sam = .next t) ∨
      ∃ f, (s.port p).flight = some f ∧ f.op = i ∧
        ((f.k < f.plan.n ∧ xfer f s = .next t) ∨ (f.plan.n ≤ f.k ∧ com f s = .next t)) := by
  unfold phased at h
  split at h
  · rename_i f hf
    refine .inr ⟨f, hf, ?_⟩
    split at h
    · refine ⟨‹_›, ?_⟩
      split at h
      · exact .inl ⟨‹_›, h⟩
      · exact .inr ⟨Nat.le_of_not_lt ‹_›, h⟩
    · cases h
  · exact .inl ⟨‹_›, h⟩

/-- A phased operation on an idle port takes its `SAMPLE` (R62). -/
theorem phased_idle {p : Port} {i : Instr} {sam : List Byte → State → Result} {xfer com : Flight → State → Result}
    {s : State} (h : (s.port p).flight = none) : phased p i sam xfer com s = accepting p i s sam := by
  simp [phased, h]

/-- A phased operation with bytes left takes its next `XFER` (R62). -/
theorem phased_xfer {p : Port} {i : Instr} {sam : List Byte → State → Result} {xfer com : Flight → State → Result}
    {s : State} {f : Flight} (h : (s.port p).flight = some f) (hi : f.op = i) (hk : f.k < f.plan.n) :
    phased p i sam xfer com s = xfer f s := by
  simp [phased, h, hi, hk]

/-- A phased operation with no bytes left takes its `COMMIT` (R62). -/
theorem phased_commit {p : Port} {i : Instr} {sam : List Byte → State → Result} {xfer com : Flight → State → Result}
    {s : State} {f : Flight} (h : (s.port p).flight = some f) (hi : f.op = i) (hk : f.plan.n ≤ f.k) :
    phased p i sam xfer com s = com f s := by
  simp [phased, h, hi, Nat.not_lt.mpr hk]

/-- A `SAMPLE` on an initialised block latches the plan (R63). -/
theorem sample_inited {p : Port} {i : Instr} {race : Instr → State → Option RecordedFault} {now : Bool}
    {plan : Snapshot → Plan} {data : List Byte} {s : State} (h : s.inited = true) :
    sample p i race now plan data s =
      .next (((s.raiseIf (race i s)).sampled p now).setFlight p
        (some { op := i, plan := plan (s.snapshot p now), data := data, k := 0, out := [] })) := by
  simp [sample, h]

/-- A `SAMPLE` in the UNINIT state is the no-op of R228. -/
theorem sample_uninit {p : Port} {i : Instr} {race : Instr → State → Option RecordedFault} {now : Bool}
    {plan : Snapshot → Plan} {data : List Byte} {s : State} (h : s.inited = false) :
    sample p i race now plan data s =
      .next (((s.raiseIf (race i s)).violated (race i s) i).respond p Response.zero) := by
  simp [sample, h]

/-- An `XFER` of a write that answers a next state stored one payload byte in an existing cell (R64). -/
theorem storeXfer_next {p : Port} {f : Flight} {s t : State} (h : storeXfer p f s = .next t) :
    f.cell < s.cfg.storageBytes ∧ ∃ v, f.data[f.plan.skip + f.k]? = some v ∧
      t = (s.storeByte f.cell v).setFlight p (some { f with k := f.k + 1 }) := by
  unfold storeXfer at h
  split at h
  · split at h
    · rename_i v hv
      exact ⟨‹_›, v, hv, by simpa using h.symm⟩
    · cases h
  · cases h

/-- An `XFER` of a read that answers a next state read one existing cell (R64). -/
theorem loadXfer_next {p : Port} {f : Flight} {s t : State} (h : loadXfer p f s = .next t) :
    f.cell < s.cfg.storageBytes ∧
      t = (s.afterRead f.cell).setFlight p (some { f with k := f.k + 1, out := f.out ++ [s.byteAt f.cell] }) := by
  unfold loadXfer at h
  split at h
  · exact ⟨‹_›, by simpa using h.symm⟩
  · cases h

/-- A query that answers a next state accepted its command and gave one response, a function of the committed registers
(R150). -/
theorem query_next {i : Instr} {answer : Snapshot → Half} {s t : State} (h : query i answer s = .next t) :
    s.busy s.turn = false ∧ (s.presented s.turn).length = payloadLen i ∧
      t = if s.inited then
          ((s.accept s.turn).sampled s.turn true).respond s.turn
            (Response.value (answer { cap := s.cap, wc := s.wc, rc := s.rc }))
        else (s.accept s.turn).respond s.turn Response.zero := by
  unfold query at h
  obtain ⟨hb, hl, hr⟩ := accepting_next.mp h
  refine ⟨hb, hl, ?_⟩
  simp only [State.accept_inited, State.accept_turn] at hr
  by_cases hi : s.inited = true
  · simp only [hi, if_true, Host.Outcome.next.injEq, State.snapshot_now, State.accept_cap, State.accept_wc,
      State.accept_rc] at hr ⊢
    exact hr.symm
  · simp only [hi, Bool.false_eq_true, if_false, Host.Outcome.next.injEq] at hr ⊢
    exact hr.symm

/-- One step of the machine, case by case (R67, R260, R261): a power-on reset, the step of the scheduled port, or, with
nothing scheduled, the step of a freely chosen port or nothing at all. -/
theorem select_cases (s : State) :
    (∃ rest, s.sched = .powerOn :: rest ∧ select s = .done (.next ({ s with sched := rest }).powerOn)) ∨
      (∃ p rest, s.sched = .port p :: rest ∧ select s = fetch p { s with sched := rest }) ∨
      (s.sched = [] ∧ s.freeTurn = none ∧ select s = .done (.next s)) ∨
      (∃ p, s.sched = [] ∧ s.freeTurn = some p ∧ select s = fetch p { s with draws := s.draws + 1 }) := by
  unfold select
  split
  · exact .inl ⟨_, ‹_›, rfl⟩
  · exact .inr (.inl ⟨_, _, ‹_›, rfl⟩)
  · split
    · exact .inr (.inr (.inl ⟨‹_›, ‹_›, rfl⟩))
    · exact .inr (.inr (.inr ⟨_, ‹_›, ‹_›, rfl⟩))

/-- The step of a port, case by case (R28, R61, R104, R229, R243): the operation in flight goes on; nothing happens; a
second agent is refused; the command presented is decoded and runs, or is illegal. -/
theorem fetch_cases (p : Port) (s : State) :
    (∃ f, (s.port p).flight = some f ∧ fetch p s = .exec f.op (s.setTurn p)) ∨
      ((s.port p).flight = none ∧ ((s.port p).pending = [] ∨ s.agentWaits p = true) ∧ fetch p s = .done (.next s)) ∨
      ∃ c rest, (s.port p).flight = none ∧ (s.port p).pending = c :: rest ∧ s.agentWaits p = false ∧
        ((c.agent ≠ s.cfg.agentOf p ∧ fetch p s = .done (.refused (.extraAgent p))) ∨
          (c.agent = s.cfg.agentOf p ∧ ∃ i, decode p c.word = .ok i ∧ fetch p s = .exec i (s.setTurn p)) ∨
          (c.agent = s.cfg.agentOf p ∧ ∃ why, decode p c.word = .illegal why ∧
            fetch p s = .done (illegalStep p c (s.setTurn p)))) := by
  unfold fetch
  split
  · exact .inl ⟨_, ‹_›, rfl⟩
  · split
    · exact .inr (.inl ⟨‹_›, .inl ‹_›, rfl⟩)
    · by_cases hw : s.agentWaits p = true
      · exact .inr (.inl ⟨‹_›, .inr hw, by simp [hw]⟩)
      · refine .inr (.inr ⟨_, _, ‹_›, ‹_›, by simpa using hw, ?_⟩)
        simp only [hw, Bool.false_eq_true, if_false]
        split
        · split
          · exact .inr (.inl ⟨‹_›, _, ‹_›, rfl⟩)
          · exact .inr (.inr ⟨‹_›, _, ‹_›, rfl⟩)
        · exact .inl ⟨‹_›, rfl⟩

end Sys2Proof.Machine
end

