-- ==== Sys2Proof/Laws/PerInstr.lean ====
section
/-! SUPPORT. Per instruction: the fields of its command word are its opcode, `RSV` = 0, and its operands, with 0 in the
fields its format has not (R94, R95, R98). -/

namespace Sys2Proof.Laws.WordFields

/-- The fields of the instruction's word. -/
def Statement (i : Instr) : Prop :=
  fieldOpc (encode i) = opcode i ∧ fieldRsv (encode i) = 0 ∧ fieldArg (encode i) = argOf i ∧
    fieldByte (encode i) = byteOf i

/-- Every word is assembled from its fields. -/
theorem of_assemble (i : Instr) : Statement i := by simp [Statement, encode]

theorem init (capReq : Half) : Statement (.init capReq) := of_assemble _
theorem reset : Statement .reset := of_assemble _
theorem create (capReq : Half) : Statement (.create capReq) := of_assemble _
theorem destroy : Statement .destroy := of_assemble _
theorem status : Statement .status := of_assemble _
theorem dataLen : Statement .dataLen := of_assemble _
theorem freeLen : Statement .freeLen := of_assemble _
theorem put (len : Half) : Statement (.put len) := of_assemble _
theorem putForce (len : Half) : Statement (.putForce len) := of_assemble _
theorem putchar (b : Byte) : Statement (.putchar b) := of_assemble _
theorem putcharForce (b : Byte) : Statement (.putcharForce b) := of_assemble _
theorem get (len : Half) : Statement (.get len) := of_assemble _
theorem getchar : Statement .getchar := of_assemble _
theorem peek : Statement .peek := of_assemble _
theorem rdmem (idx : Half) : Statement (.rdmem idx) := of_assemble _

end Sys2Proof.Laws.WordFields
end

