-- ==== Sys2Proof/Tests/Slice0.lean ====
section
/-! SUPPORT. Tests with expected results from the spec's own examples, and for every statement with hypotheses a witness
that meets them all. -/

namespace Sys2Proof.Tests
open Sys2Proof Sys2Proof.Machine

/-! ### Helpers -/

/-- A cursor (lap, idx) as the spec writes one. -/
def cur (lap idx : Nat) : Cursor := { lap := decide (lap = 1), idx := BitVec.ofNat 15 idx }

/-- Consecutive cells from cell `a` upward. -/
def cells : Nat → List Byte → Memory
  | _, [] => []
  | a, b :: bs => (a, b) :: cells (a + 1) bs

/-- An initialised, idle block. -/
def ready (cap : Nat) (w r : Cursor) (m : Memory) : State :=
  { State.reset with inited := true, cap := BitVec.ofNat 15 cap, wc := w, rc := r, mem := m }

/-- The same machine with another configuration. -/
def withConfig (s : State) (a : AssertMode) (v : CursorView) (storageBytes : Nat) : State :=
  { s with cfg := { Config.standard with assertMode := a, cursorView := v, storageBytes := storageBytes } }

/-- The command of instruction `i` with payload `d`, from the agent of port `p`. -/
def commandOf (s : State) (p : Port) (i : Instr) (d : List Byte) : Command :=
  { agent := s.cfg.agentOf p, word := encode i, payload := d }

/-- `s` with instruction `i` and payload `d` presented at port `p`, whose step it is. -/
def give (s : State) (p : Port) (i : Instr) (d : List Byte) : State :=
  (s.issue p (commandOf s p i d)).setTurn p

/-- What one step of an instruction answers, seen through `f`; none where it stops. -/
def seen {α : Type} (f : State → α) : Result → Option α
  | .next t => some (f t)
  | _ => none

/-- The last response of a port. -/
def lastOf (p : Port) (t : State) : Option Response := (t.port p).responses.getLast?

/-- The plan of the operation in flight on a port. -/
def planOf (p : Port) (t : State) : Option Plan := ((t.port p).flight).map Flight.plan

/-! ### Decoding: every row of R107, and words 95_test_vectors.md 2.6 calls illegal -/

theorem test_decode_init : decode .host 0x10001000#32 = .ok (.init 16) := by decide
theorem test_decode_reset : decode .host 0x20000000#32 = .ok .reset := by decide
theorem test_decode_create : decode .host 0x30001000#32 = .ok (.create 16) := by decide
theorem test_decode_destroy : decode .host 0x40000000#32 = .ok .destroy := by decide
theorem test_decode_status : decode .consumer 0x50000000#32 = .ok .status := by decide
theorem test_decode_data_len : decode .consumer 0x60000000#32 = .ok .dataLen := by decide
theorem test_decode_free_len : decode .producer 0x70000000#32 = .ok .freeLen := by decide
theorem test_decode_put : decode .producer 0x80000A00#32 = .ok (.put 10) := by decide
theorem test_decode_put_force : decode .producer 0x90001400#32 = .ok (.putForce 20) := by decide
theorem test_decode_putchar : decode .producer 0xA000005A#32 = .ok (.putchar 0x5A) := by decide
theorem test_decode_putchar_force : decode .producer 0xB000005A#32 = .ok (.putcharForce 0x5A) := by decide
theorem test_decode_get : decode .consumer 0xC0000500#32 = .ok (.get 5) := by decide
theorem test_decode_getchar : decode .consumer 0xD0000000#32 = .ok .getchar := by decide
theorem test_decode_peek : decode .consumer 0xE0000000#32 = .ok .peek := by decide
theorem test_decode_rdmem : decode .consumer 0xF0000C00#32 = .ok (.rdmem 12) := by decide

/-- `PUT 10` bit by bit from R94 and R98: OPC 1000, RSV 0000, ARG 0000000000001010, BYTE 00000000. -/
theorem test_decode_put_bits : decode .producer 0b10000000000000000000101000000000#32 = .ok (.put 10) := by decide

theorem test_illegal_zero : ∀ p ∈ [Port.producer, .consumer, .host], decode p 0#32 = .illegal .noOpcode := by decide
theorem test_illegal_reserved : decode .producer 0x81000300#32 = .illegal .reservedField := by decide
theorem test_illegal_arg_in_format_b : decode .producer 0xA000015A#32 = .illegal .unusedArg := by decide
theorem test_illegal_byte_in_format_n : decode .consumer 0xD0000001#32 = .illegal .unusedByte := by decide
theorem test_illegal_byte_in_format_a : decode .consumer 0xC0000501#32 = .illegal .unusedByte := by decide
theorem test_illegal_arg_in_format_n : decode .host 0x20000100#32 = .illegal .unusedArg := by decide
theorem test_illegal_get_on_p : decode .producer 0xC0000500#32 = .illegal .wrongPort := by decide
theorem test_illegal_rdmem_on_h : decode .host 0xF0000000#32 = .illegal .wrongPort := by decide

/-- The table's numbering: `GET 5` again, and a row given fewer bits than the word has. -/
theorem test_decode_table_word :
    decodeTableWord 32 0xC0000500 = some (.get 5) ∧ decodeTableWord 32 0x00000000 = none := by decide

/-! ### Well-formedness refuses each ill-formed thing -/

theorem test_wellFormed_accepts : wellFormed .producer (.put 2) [1, 2] = true := by decide
theorem test_wellFormed_wrong_port : wellFormed .consumer (.put 2) [1, 2] = false := by decide
theorem test_wellFormed_short_payload : wellFormed .producer (.put 2) [1] = false := by decide
theorem test_wellFormed_extra_payload : wellFormed .consumer .getchar [1] = false := by decide
theorem test_config_standard_valid : Config.standard.valid = true := by decide
theorem test_config_idxW_low : { Config.standard with idxW := 2, storageBytes := 0 }.valid = false := by decide
theorem test_config_idxW_high : { Config.standard with idxW := 16 }.valid = false := by decide
theorem test_config_storage : { Config.standard with storageBytes := 32768 }.valid = false := by decide

/-! ### One step after reset -/

/-- R134, 95_test_vectors.md 2.1: `INIT 16` presented first is fetched and binds 16 bytes. -/
theorem test_step_init_from_reset :
    seen (fun t => (t.inited, t.cap, lastOf .host t)) (step (State.reset.withFetchWord 32 0x10001000)) =
      some (true, 16, some (Response.value 16)) := by decide

/-- R228: `PUT 3` presented first finds the block UNINIT and answers zeros. -/
theorem test_step_put_from_reset :
    seen (fun t => (t.inited, lastOf .producer t)) (step (State.reset.withFetchWord 32 0x80000300)) =
      some (false, some Response.zero) := by decide

/-- R261: with nothing presented the block does nothing. -/
theorem test_step_reset_idle (p : Port) : State.reset.enabled p = false := by cases p <;> decide

/-! ### Instructions: the spec's own vectors -/

/-- 95_test_vectors.md 2.1: `INIT 7` gives 4. -/
theorem test_init_aligns :
    seen (fun t => (t.cap, lastOf .host t)) (exec (.init 7) (give State.reset .host (.init 7) [])) =
      some (4, some (Response.value 4)) := by decide

/-- 95_test_vectors.md 2.1: `STORAGE_BYTES` = 6, `INIT 7` fails though 4 would fit. -/
theorem test_init_checks_request :
    seen (fun t => (t.inited, t.cap, lastOf .host t))
        (exec (.init 7) (give (withConfig State.reset .degrade .fresh 6) .host (.init 7) [])) =
      some (false, 0, some Response.zero) := by decide

/-- 95_test_vectors.md 2.1: `CREATE` behaves as `INIT`: 32767 gives 32764. -/
theorem test_create_largest :
    seen (fun t => (t.cap, lastOf .host t)) (exec (.create 32767) (give State.reset .host (.create 32767) [])) =
      some (32764, some (Response.value 32764)) := by decide

/-- R227, R230: under `assert` a failed `CREATE` is recorded with its operand and `(inited, cap)`. -/
theorem test_create_fail_recorded :
    seen (fun t => t.faults)
        (exec (.create 3) (give (withConfig State.reset .assert .fresh 16) .host (.create 3) [])) =
      some [.preconditionViolated (.create 3) false 0] := by decide

/-- The buffer `ijkdefgh`, full, of 95_test_vectors.md 2.3. -/
def full8 : State := ready 8 (cur 1 3) (cur 0 3) (cells 0 [0x69, 0x6A, 0x6B, 0x64, 0x65, 0x66, 0x67, 0x68])

/-- 95_test_vectors.md 2.1: `RESET` on it clears both cursors and keeps cell 3. -/
theorem test_reset_full :
    seen (fun t => (t.wc, t.rc, t.cap, Memory.read? t.mem 3)) (exec .reset (give full8 .host .reset [])) =
      some (cur 0 0, cur 0 0, 8, some 0x64) := by decide

/-- 95_test_vectors.md 2.1: `DESTROY` on it. -/
theorem test_destroy_full :
    seen (fun t => (t.inited, t.cap, t.wc, lastOf .host t)) (exec .destroy (give full8 .host .destroy [])) =
      some (false, 0, cur 0 0, some Response.zero) := by decide

/-- R271: with an operation in flight on P, `DESTROY` records the race. -/
theorem test_destroy_race :
    seen (fun t => t.faults)
        (exec .destroy (give (full8.setFlight .producer
          (some { op := .put 1, plan := putPlan 1 ⟨8, cur 1 3, cur 0 3⟩, data := [1], k := 0, out := [] })) .host .destroy [])) =
      some [.raceLifecycle .destroy [(.producer, .put 1)]] := by decide

/-- 95_test_vectors.md 2.2, `cap` 4: (1,0) (0,0) is `FULL`, (1,2) (1,2) `EMPTY`. -/
theorem test_status_full :
    seen (lastOf .consumer) (exec .status (give (ready 4 (cur 1 0) (cur 0 0) []) .consumer .status [])) =
      some (some (Response.value 1)) := by decide
theorem test_status_half_full :
    seen (lastOf .host) (exec .status (give (ready 4 (cur 1 1) (cur 0 3) []) .host .status [])) =
      some (some (Response.value 2)) := by decide

/-- 95_test_vectors.md 2.2, `cap` 4: (1,1) (0,3) holds 2, (0,2) (1,2) holds 4. -/
theorem test_data_len_wraps :
    seen (lastOf .consumer) (exec .dataLen (give (ready 4 (cur 1 1) (cur 0 3) []) .consumer .dataLen [])) =
      some (some (Response.value 2)) := by decide
theorem test_data_len_full :
    seen (lastOf .producer) (exec .dataLen (give (ready 4 (cur 0 2) (cur 1 2) []) .producer .dataLen [])) =
      some (some (Response.value 4)) := by decide

/-- 95_test_vectors.md 2.2, `cap` 4: (1,2) (1,2) leaves 4 free; UNINIT leaves none. -/
theorem test_free_len_empty :
    seen (lastOf .producer) (exec .freeLen (give (ready 4 (cur 1 2) (cur 1 2) []) .producer .freeLen [])) =
      some (some (Response.value 4)) := by decide
theorem test_free_len_uninit :
    seen (lastOf .host) (exec .freeLen (give State.reset .host .freeLen [])) = some (some Response.zero) := by decide

/-- The buffer `...def..` of 95_test_vectors.md 2.3. -/
def def8 : State := ready 8 (cur 0 6) (cur 0 3) (cells 3 [0x64, 0x65, 0x66])

/-- 95_test_vectors.md 2.3: `PUT 9, "ghijklmno"` takes 5 and will reach (1,3). -/
theorem test_put_sample_short :
    seen (fun t => (planOf .producer t).map fun q => (q.n, q.skip, q.newWc, q.newRc))
        (exec (.put 9) (give def8 .producer (.put 9) [0x67, 0x68, 0x69, 0x6A, 0x6B, 0x6C, 0x6D, 0x6E, 0x6F])) =
      some (some (5, 0, some (cur 1 3), none)) := by decide

/-- 95_test_vectors.md 2.3: `PUT 2, "gh"` leaves (1,0) (0,3) `...defgh`. -/
theorem test_put_reaches_end :
    ((atomicPut 2 [0x67, 0x68] def8).1.wc, (atomicPut 2 [0x67, 0x68] def8).1.rc, (atomicPut 2 [0x67, 0x68] def8).1.mem) =
      (cur 1 0, cur 0 3, cells 3 [0x64, 0x65, 0x66, 0x67, 0x68]) := by decide

/-- 95_test_vectors.md 2.3: `PUT_FORCE 11` on it drops 3 and overwrites, to (1,6) (0,6). -/
theorem test_put_force_sample :
    seen (fun t => (planOf .producer t).map fun q => (q.n, q.skip, q.newWc, q.newRc))
        (exec (.putForce 11) (give def8 .producer (.putForce 11) (List.replicate 11 0x67))) =
      some (some (8, 3, some (cur 1 6), some (cur 0 6))) := by decide

/-- 95_test_vectors.md 2.3: `PUT_FORCE 8, "ABCDEFGH"` on the full buffer: (0,3) (1,3) `FGHABCDE`. -/
theorem test_put_force_boundary :
    ((atomicPutForce 8 [0x41, 0x42, 0x43, 0x44, 0x45, 0x46, 0x47, 0x48] full8).1.wc,
      (atomicPutForce 8 [0x41, 0x42, 0x43, 0x44, 0x45, 0x46, 0x47, 0x48] full8).1.rc,
      (atomicPutForce 8 [0x41, 0x42, 0x43, 0x44, 0x45, 0x46, 0x47, 0x48] full8).1.mem) =
      (cur 0 3, cur 1 3, cells 0 [0x46, 0x47, 0x48, 0x41, 0x42, 0x43, 0x44, 0x45]) := by decide

/-- The buffer `ij....gh` of 95_test_vectors.md 2.4. -/
def wrap8 : State := ready 8 (cur 1 2) (cur 0 6) [(0, 0x69), (1, 0x6A), (6, 0x67), (7, 0x68)]

/-- 95_test_vectors.md 2.4: `GET 9` takes 4. -/
theorem test_get_sample_short :
    seen (fun t => (planOf .consumer t).map fun q => (q.n, q.newWc, q.newRc)) (exec (.get 9) (give wrap8 .consumer (.get 9) [])) =
      some (some (4, none, some (cur 1 2))) := by decide

/-- 95_test_vectors.md 2.4: `GET 3` gives `ghi` and (1,1). -/
theorem test_get_crosses :
    ((atomicGet 3 wrap8).2, (atomicGet 3 wrap8).1.rc) =
      ({ r0 := 3, r1 := 0, payload := [0x67, 0x68, 0x69] }, cur 1 1) := by decide

/-- 95_test_vectors.md 2.4: `PEEK` gives 2 bytes at index 6, then (1,0); on the full wrapped buffer 5 at index 3. -/
theorem test_peek_sample :
    seen (fun t => (planOf .consumer t).map fun q => (q.n, q.newRc)) (exec .peek (give wrap8 .consumer .peek [])) =
      some (some (2, some (cur 1 0))) := by decide
theorem test_peek_full : (atomicPeek full8).2.word = 0x00030005#32 := by decide

/-- 95_test_vectors.md 2.4: `RDMEM 2` on `..cde...` gives `c`; index `cap` gives zeros. -/
theorem test_rdmem_cell :
    seen (fun t => (lastOf .consumer t).map Response.word)
        (exec (.rdmem 2) (give (ready 8 (cur 0 5) (cur 0 2) (cells 2 [0x63, 0x64, 0x65])) .consumer (.rdmem 2) [])) =
      some (some 0x00630001#32) := by decide
theorem test_rdmem_at_cap :
    seen (fun t => (lastOf .consumer t).map Response.word) (exec (.rdmem 8) (give full8 .consumer (.rdmem 8) [])) =
      some (some 0#32) := by decide

/-- The full buffer `ebcd` of 95_test_vectors.md 2.5. -/
def full4 : State := ready 4 (cur 1 1) (cur 0 1) (cells 0 [0x65, 0x62, 0x63, 0x64])

/-- 95_test_vectors.md 2.5: `PUTCHAR` finds it full; on `.bc.` it goes to (1,0). -/
theorem test_putchar_sample_full :
    seen (fun t => (planOf .producer t).map fun q => (q.n, q.newWc)) (exec (.putchar 0x78) (give full4 .producer (.putchar 0x78) [])) =
      some (some (0, some (cur 1 1))) := by decide
theorem test_putchar_reaches_end :
    (atomicPutchar 0x64 (ready 4 (cur 0 3) (cur 0 1) (cells 1 [0x62, 0x63]))).1.wc = cur 1 0 := by decide

/-- 95_test_vectors.md 2.5: `PUTCHAR_FORCE 'f'` on it goes to (1,2) (0,2); at the last cell both laps flip. -/
theorem test_putchar_force_sample :
    seen (fun t => (planOf .producer t).map fun q => (q.ovw, q.newWc, q.newRc))
        (exec (.putcharForce 0x66) (give full4 .producer (.putcharForce 0x66) [])) =
      some (some (true, some (cur 1 2), some (cur 0 2))) := by decide
theorem test_putchar_force_last_cell :
    ((atomicPutcharForce 0x5A (ready 4 (cur 0 3) (cur 1 3) (cells 0 [0x61, 0x62, 0x63, 0x64]))).1.wc,
      (atomicPutcharForce 0x5A (ready 4 (cur 0 3) (cur 1 3) (cells 0 [0x61, 0x62, 0x63, 0x64]))).1.rc) =
      (cur 1 0, cur 0 0) := by decide

/-- 95_test_vectors.md 2.5: `GETCHAR` on `e..d` gives `d` and goes to (1,0); a zero byte answers 1. -/
theorem test_getchar_sample :
    seen (fun t => (planOf .consumer t).map fun q => (q.n, q.newRc))
        (exec .getchar (give (ready 4 (cur 1 1) (cur 0 3) [(0, 0x65), (3, 0x64)]) .consumer .getchar [])) =
      some (some (1, some (cur 1 0))) := by decide
theorem test_getchar_zero_byte :
    (atomicGetchar (ready 4 (cur 0 1) (cur 0 0) [(0, 0)])).2.word = 0x00000001#32 := by decide

/-! ### Windows of past cursor values (R71) -/

/-- `...def..` under `monotone_stale`, `rc` having gone from (0,1) to (0,3) since port P last sampled. -/
def stale8 : State := { withConfig def8 .degrade .monotoneStale 16 with staleRc := [cur 0 1] }

/-- R71: the `SAMPLE` of `PUT 9` sees (0,1), with 3 cells free, which stays visible; or (0,3), with 5, and then nothing older. -/
theorem test_put_sample_stale :
    let o := seen (fun t => ((planOf .producer t).map Plan.n, t.staleRc))
      (exec (.put 9) (give stale8 .producer (.put 9) (List.replicate 9 0x67)))
    o = some (some 3, [cur 0 1]) ∨ o = some (some 5, []) := by
  have hs : seen (fun t => ((planOf .producer t).map Plan.n, t.staleRc))
      (exec (.put 9) (give stale8 .producer (.put 9) (List.replicate 9 0x67))) =
        some (some (putCount 9 ⟨8, cur 0 6, seenCursor [cur 0 1] (cur 0 3) (Config.freeView 0 % 2)⟩),
          [cur 0 1].drop (Config.freeView 0 % 2)) := by rfl
  rcases Nat.mod_two_eq_zero_or_one (Config.freeView 0) with h | h <;> rw [hs, h] <;> decide

/-- R71: a commit of `GET` from (0,3) to (0,5) leaves (0,3) visible to port P, behind (0,1). -/
theorem test_commit_leaves_old_value :
    let f : Flight := { op := .get 2, plan := readPlan 2 ⟨8, cur 0 6, cur 0 3⟩, data := [], k := 2, out := [0x64, 0x65] }
    seen (fun t => (t.rc, t.staleRc, t.staleWc)) (exec (.get 2) (stale8.setFlight .consumer (some f))) =
      some (cur 0 5, [cur 0 1, cur 0 3], []) := by decide

/-- R71: an overwriting force commit closes the windows. -/
theorem test_overwrite_closes_windows :
    let f : Flight := { op := .putForce 6, plan := putForcePlan 6 ⟨8, cur 0 6, cur 0 3⟩, data := List.replicate 6 0x67, k := 6, out := [] }
    seen (fun t => (t.rc, t.staleRc, t.staleWc)) (exec (.putForce 6) (stale8.setFlight .producer (some f))) =
      some (cur 0 4, [], []) := by decide

/-- R154, R274: `FREE_LEN` on port P reads the committed cursors, 5 free, and closes that port's window. -/
theorem test_query_sees_present :
    seen (fun t => (lastOf .producer t, t.staleRc)) (exec .freeLen (give stale8 .producer .freeLen [])) =
      some (some (Response.value 5), []) := by decide

/-! ### Witnesses: for every statement with hypotheses, a state and operands that meet them all -/

/-- An operation of port P in flight: `PUT 4` on `..cde...` (R166's example), `k` bytes stored. -/
def putFlight (k : Nat) : Flight :=
  { op := .put 4, plan := putPlan 4 ⟨8, cur 0 5, cur 0 2⟩, data := [0x66, 0x67, 0x68, 0x69], k := k, out := [] }

/-- An operation of port C in flight: `GET 2` on the same buffer, `out` read so far. -/
def getFlight (out : List Byte) : Flight :=
  { op := .get 2, plan := readPlan 2 ⟨8, cur 0 5, cur 0 2⟩, data := [], k := out.length, out := out }

/-- An operation of port C in flight: `PEEK` on the same buffer. -/
def peekFlight : Flight := { op := .peek, plan := readPlan 3 ⟨8, cur 0 5, cur 0 2⟩, data := [], k := 0, out := [] }

/-- An operation of port C in flight: `GETCHAR` on the same buffer, its byte read. -/
def getcharFlight : Flight :=
  { op := .getchar, plan := readPlan 1 ⟨8, cur 0 5, cur 0 2⟩, data := [], k := 1, out := [0x63] }

/-- A force write in flight on the same buffer. -/
def forceFlight : Flight :=
  { op := .putForce 1, plan := putForcePlan 1 ⟨8, cur 0 5, cur 0 2⟩, data := [0x66], k := 0, out := [] }

/-- The buffer `..cde...`. -/
def cde8 : State := ready 8 (cur 0 5) (cur 0 2) (cells 2 [0x63, 0x64, 0x65])

/-- `s` with port `p` scheduled next. -/
def scheduled (s : State) (p : Port) : State := { s with sched := [.port p] }

theorem witness_EncodeOfDecode : decode .producer 0x80000A00#32 = .ok (.put 10) := by decide

/-- Offsets below, at, and past the last cell. -/
theorem witness_AddrIsModulo :
    ((cur 0 5).idx.toNat < 8 ∧ 2 < 8) ∧ (cur 0 5).idx.toNat + 2 < 8 ∧ (cur 1 5).idx.toNat + 3 = 8 ∧ (cur 1 7).idx.toNat + 7 = 14 := by
  decide

/-- Short of the end, at it, past it, by the whole capacity. -/
theorem witness_AdvanceFlipsLapAtEnd :
    (cur 0 5).idx.toNat < 8 ∧ 8 ≤ 8 ∧ 8 < 32768 ∧ (cur 0 5).idx.toNat + 2 < 8 ∧ 8 ≤ (cur 0 5).idx.toNat + 3 ∧
      adv (cur 0 5) 3 8 = cur 1 0 ∧ adv (cur 0 5) 2 8 = cur 0 7 ∧ adv (cur 0 5) 8 8 = cur 1 5 := by decide

/-- Offset 2 lies in the first run and offset 3 in the second, of a transfer of 4. -/
theorem witness_RunsMakeUpTransfer :
    (cur 0 5).idx.toNat < 8 ∧ 4 ≤ 8 ∧ 2 < run1 (cur 0 5) 4 8 ∧ run1 (cur 0 5) 4 8 ≤ 3 ∧ 3 < 4 ∧ 0 < run2 (cur 0 5) 4 8 := by
  decide

theorem witness_UnitAdvance :
    (cur 0 3).idx.toNat < 4 ∧ 4 < 32768 ∧ (cur 0 3).idx.toNat = 4 - 1 ∧ (cur 0 2).idx.toNat < 4 ∧ (cur 0 2).idx.toNat ≠ 4 - 1 := by
  decide

/-- Totals that are equal, that differ by `cap`, and between. -/
theorem witness_ComparatorCountsBytes :
    (0 < 8 ∧ 8 < 32768 ∧ 13 ≤ 13 ∧ 13 ≤ 13 + 8) ∧ (13 ≤ 21 ∧ 21 ≤ 13 + 8) ∧ (13 ≤ 16 ∧ 16 ≤ 13 + 8) := by decide

/-- A write of all that is free, and a read of all that is buffered. -/
theorem witness_AdvanceKeepsLapOrder :
    (cur 1 2).idx.toNat < 8 ∧ (cur 0 6).idx.toNat < 8 ∧ lapOrder (cur 1 2) (cur 0 6) ∧ 4 ≤ freeLen (cur 1 2) (cur 0 6) 8 ∧
      4 ≤ dataLen (cur 1 2) (cur 0 6) 8 := by decide

/-- One overwrite for each row of R177's table. -/
theorem witness_ForcedReadFormsAgree :
    (lapOrder (cur 0 6) (cur 0 3) ∧ freeLen (cur 0 6) (cur 0 3) 8 < 6 ∧ 6 ≤ 8) ∧
      (lapOrder (cur 1 2) (cur 0 6) ∧ freeLen (cur 1 2) (cur 0 6) 8 < 5) ∧
      (lapOrder (cur 1 3) (cur 0 3) ∧ freeLen (cur 1 3) (cur 0 3) 8 < 8) := by decide

/-- The least and the largest request that succeed, on an idle block. -/
theorem witness_InitAndCreateBindStorage :
    let s := give State.reset .host (.init 4) []
    s.cfg.valid = true ∧ s.canAccept .host (.init 4) ∧ s.canAccept .host (.create 32767) ∧ s.portP.flight = none ∧
      s.portC.flight = none ∧ 4 ≤ (4 : Half).toNat ∧ (32767 : Half).toNat ≤ 2 ^ s.cfg.idxW - 1 ∧
      (32767 : Half).toNat ≤ s.cfg.storageBytes := by decide

/-- One request for each way to fail, in either mode, on an idle block and beside a busy port P. -/
theorem witness_InitAndCreateFail :
    let s := give (withConfig cde8 .assert .fresh 16) .host (.init 3) []
    let u := give (cde8.setFlight .producer (some (putFlight 1))) .host (.create 3) []
    (s.canAccept .host (.init 3) ∧ s.canAccept .host (.create 17) ∧ s.portP.flight = none ∧ s.portC.flight = none ∧
      (3 : Half).toNat < 4 ∧ 2 ^ s.cfg.idxW - 1 < (32768 : Half).toNat ∧ s.cfg.storageBytes < (17 : Half).toNat ∧
      s.cfg.assertMode = .assert) ∧
      u.canAccept .host (.create 3) ∧ u.portP.flight ≠ none ∧ u.cfg.assertMode = .degrade := by decide

theorem witness_DestroyReturnsToUninit :
    let s := give cde8 .host .destroy []
    s.canAccept .host .destroy ∧ s.portP.flight = none ∧ s.portC.flight = none := by decide

/-- An initialised and an UNINIT block. -/
theorem witness_ResetClearsCursors :
    let s := give cde8 .host .reset []
    let u := give State.reset .host .reset []
    (s.canAccept .host .reset ∧ s.portP.flight = none ∧ s.portC.flight = none ∧ s.inited = true) ∧
      (u.canAccept .host .reset ∧ u.portP.flight = none ∧ u.portC.flight = none ∧ u.inited = false) := by decide

/-- Busy on P, and busy on C. -/
theorem witness_LifecycleRaceRecorded :
    let s := give ((cde8.setFlight .producer (some (putFlight 0))).setFlight .consumer (some (getFlight []))) .host .reset []
    isLifecycle .reset = true ∧ s.canAccept .host .reset ∧ (s.port .producer).flight = some (putFlight 0) ∧
      (s.port .consumer).flight = some (getFlight []) := by decide

theorem witness_LifecycleFrame : isLifecycle .reset = true ∧ ∃ t, exec .reset (give cde8 .host .reset []) = .next t :=
  ⟨rfl, _, rfl⟩

/-- The port that asks is P, C or H. -/
theorem witness_StatusAnswersCode :
    ∀ p ∈ [Port.producer, .consumer, .host], (give cde8 p .status []).canAccept (give cde8 p .status []).turn .status := by
  decide

theorem witness_DataLenAnswersCount :
    ∀ p ∈ [Port.producer, .consumer, .host], (give cde8 p .dataLen []).canAccept (give cde8 p .dataLen []).turn .dataLen := by
  decide

theorem witness_FreeLenAnswersCount :
    ∀ p ∈ [Port.producer, .consumer, .host], (give cde8 p .freeLen []).canAccept (give cde8 p .freeLen []).turn .freeLen := by
  decide

/-- A block meets the invariant while no race is recorded, if its parts hold. -/
theorem inv_of_parts (s : State) (hc : s.cfg.valid = true) (hs : s.storageOk) (hq : s.quietOk) : s.Inv :=
  ⟨hc, hs, fun _ => hq⟩

/-- Port C under `monotone_stale`, with an older write cursor still visible to it; and port P with the same registers. -/
theorem witness_LengthsSumToCapacity :
    let s := { give (withConfig cde8 .degrade .monotoneStale 16) .consumer .dataLen [] with staleWc := [cur 0 4] }
    let t := give cde8 .producer .freeLen []
    s.Inv ∧ s.raceFree ∧ sameRegisters s t ∧ s.canAccept s.turn .dataLen ∧ t.canAccept t.turn .freeLen :=
  ⟨inv_of_parts _ (by decide) (by decide)
      ⟨by decide, by decide, by decide, by decide, by decide, by decide, by decide, by decide⟩,
    by decide, by decide, by decide, by decide⟩

theorem witness_QueryFrame : isQuery .status = true ∧ ∃ t, exec .status (give cde8 .producer .status []) = .next t :=
  ⟨rfl, _, rfl⟩

theorem witness_StaleSampleStaysInWindow :
    (withConfig cde8 .degrade .monotoneStale 16).cfg.cursorView = .monotoneStale := by decide

/-- Under either view. -/
theorem witness_PutSamplesPlan :
    let s := give cde8 .producer (.put 2) [1, 2]
    let u := give (withConfig cde8 .degrade .monotoneStale 16) .producer (.put 2) [1, 2]
    s.canAccept .producer (.put 2) ∧ s.inited = true ∧ s.cfg.cursorView = .fresh ∧
      u.canAccept .producer (.put 2) ∧ u.inited = true ∧ u.cfg.cursorView = .monotoneStale := by decide

/-- A force write that fits (5 bytes are free), and one that overwrites. -/
theorem witness_PutForceSamplesPlan :
    let s := give cde8 .producer (.putForce 5) [1, 2, 3, 4, 5]
    let u := give cde8 .producer (.putForce 6) [1, 2, 3, 4, 5, 6]
    s.canAccept .producer (.putForce 5) ∧ u.canAccept .producer (.putForce 6) ∧ s.inited = true ∧ s.portC.flight = none ∧
      freeLen s.wc s.rc s.cap.toNat = 5 := by decide

/-- With room, and full. -/
theorem witness_SingleByteWritesSamplePlan :
    let s := give cde8 .producer (.putchar 1) []
    let u := give full4 .producer (.putcharForce 1) []
    s.inited = true ∧ s.canAccept .producer (.putchar 1) ∧ s.canAccept .producer (.putcharForce 1) ∧
      status s.wc s.rc ≠ .full ∧ s.portC.flight = none ∧
      u.inited = true ∧ u.canAccept .producer (.putchar 1) ∧ u.canAccept .producer (.putcharForce 1) ∧
      status u.wc u.rc = .full ∧ u.portC.flight = none := by decide

/-- `GET`, `GETCHAR` and `PEEK`, beside a `PUT` in flight. -/
theorem witness_ReadsSamplePlan :
    let s := give (cde8.setFlight .producer (some (putFlight 1))) .consumer .peek []
    (∀ i ∈ [Instr.get 2, .getchar, .peek], movesReadCursor i = true ∧ s.canAccept .consumer i) ∧ s.inited = true ∧
      ∀ f ∈ s.portP.flight.toList, isForceWrite f.op = false := by decide

/-- A write and a read, in either mode. -/
theorem witness_UninitDataOperationsAnswerZero :
    let s := give (withConfig State.reset .assert .fresh 16) .producer (.put 1) [7]
    let u := give State.reset .consumer (.rdmem 0) []
    isDataOp (.put 1) = true ∧ s.canAccept (s.portOf (.put 1)) (.put 1) ∧ s.inited = false ∧ s.cfg.assertMode = .assert ∧
      isDataOp (.rdmem 0) = true ∧ u.canAccept (u.portOf (.rdmem 0)) (.rdmem 0) ∧ u.inited = false ∧
      u.cfg.assertMode = .degrade := by decide

/-- Each order of the two operations. -/
theorem witness_ForceRaceRecorded :
    let s := give (cde8.setFlight .consumer (some (getFlight []))) .producer (.putcharForce 1) []
    let u := give (cde8.setFlight .producer (some forceFlight)) .consumer .peek []
    s.inited = true ∧ isForceWrite (.putcharForce 1) = true ∧ s.canAccept .producer (.putcharForce 1) ∧
      s.portC.flight = some (getFlight []) ∧ movesReadCursor (getFlight []).op = true ∧
      u.inited = true ∧ movesReadCursor .peek = true ∧ u.canAccept .consumer .peek ∧ u.portP.flight = some forceFlight ∧
      isForceWrite forceFlight.op = true := by decide

/-- The last byte of `PUT 4` goes around the end, to cell 0. -/
theorem witness_WriteTransfersOneByte :
    let f := putFlight 3
    writesCells f.op = true ∧ (cde8.setFlight .producer (some f)).portP.flight = some f ∧ f.k < f.plan.n ∧
      addr f.plan.base f.k f.plan.snap.cap.toNat = 0 ∧
      addr f.plan.base f.k f.plan.snap.cap.toNat < (cde8.setFlight .producer (some f)).cfg.storageBytes ∧
      f.data[f.plan.skip + f.k]? = some 0x69 := by decide

theorem witness_ReadTransfersOneByte :
    let f := getFlight [0x63]
    f.op = .get 2 ∧ (cde8.setFlight .consumer (some f)).portC.flight = some f ∧ f.k < f.plan.n ∧
      addr f.plan.base f.k f.plan.snap.cap.toNat < (cde8.setFlight .consumer (some f)).cfg.storageBytes ∧
      Memory.read? (cde8.setFlight .consumer (some f)).mem (addr f.plan.base f.k f.plan.snap.cap.toNat) = some 0x64 := by decide

/-- A write that overwrites nothing, under either view, and one that overwrites. -/
theorem witness_WriteCommitPublishes :
    let f := putFlight 4
    let g := { forceFlight with op := .putForce 6, plan := putForcePlan 6 ⟨8, cur 0 5, cur 0 2⟩, k := 6 }
    (writesCells f.op = true ∧ (cde8.setFlight .producer (some f)).portP.flight = some f ∧ f.k = f.plan.n ∧
      f.plan.ovw = false ∧ cde8.cfg.cursorView = .fresh ∧
      (withConfig cde8 .degrade .monotoneStale 16).cfg.cursorView = .monotoneStale) ∧
    (writesCells g.op = true ∧ (cde8.setFlight .producer (some g)).portP.flight = some g ∧ g.k = g.plan.n ∧
      g.plan.ovw = true) := by decide

/-- `GET`, `GETCHAR` and `PEEK`. -/
theorem witness_ReadCommitPublishes :
    (∀ f ∈ [getFlight [0x63, 0x64], getcharFlight, peekFlight],
      movesReadCursor f.op = true ∧ (cde8.setFlight .consumer (some f)).portC.flight = some f ∧
        (f.op = .peek ∨ (f.k = f.plan.n ∧ f.out.length = f.k)) ∧ (f.op = .getchar → f.plan.n ≤ 1)) ∧
      getcharFlight.out = [0x63] ∧ 0 < peekFlight.plan.n := by decide

/-- An `XFER`, and a `SAMPLE`. -/
theorem witness_WriteFrame :
    writesCells (.put 4) = true ∧ (∃ t, exec (.put 4) (cde8.setFlight .producer (some (putFlight 3))) = .next t) ∧
      ∃ t, exec (.put 2) (give cde8 .producer (.put 2) [1, 2]) = .next t :=
  ⟨rfl, ⟨_, rfl⟩, _, rfl⟩

/-- A `COMMIT` of `PEEK`, and `RDMEM`. -/
theorem witness_ReadFrame :
    movesReadCursor .peek = true ∧ (∃ t, exec .peek (cde8.setFlight .consumer (some peekFlight)) = .next t) ∧
      ∃ t, exec (.rdmem 2) (give cde8 .consumer (.rdmem 2) []) = .next t :=
  ⟨rfl, ⟨_, rfl⟩, _, rfl⟩

/-- The last index below `cap`, and `cap` itself. -/
theorem witness_RdmemReadsOneCell :
    let s := give cde8 .consumer (.rdmem 7) []
    s.canAccept .consumer (.rdmem 7) ∧ s.canAccept .consumer (.rdmem 8) ∧ s.inited = true ∧
      s.cap.toNat ≤ s.cfg.storageBytes ∧ (7 : Half).toNat < s.cap.toNat ∧ s.cap.toNat ≤ (8 : Half).toNat := by decide

theorem witness_BulkWritesRunAsAtomicReading :
    let s := give cde8 .producer (.put 2) [1, 2]
    s.inited = true ∧ s.wc.idx.toNat < s.cap.toNat ∧ s.cap.toNat ≤ s.cfg.storageBytes ∧
      s.canAccept .producer (.put 2) ∧ s.canAccept .producer (.putForce 2) ∧ s.portC.flight = none := by decide

theorem witness_SingleByteWritesRunAsAtomicReading :
    let s := give cde8 .producer (.putchar 1) []
    s.inited = true ∧ s.wc.idx.toNat < s.cap.toNat ∧ s.cap.toNat ≤ s.cfg.storageBytes ∧
      s.canAccept .producer (.putchar 1) ∧ s.canAccept .producer (.putcharForce 1) ∧ s.portC.flight = none := by decide

theorem witness_ReadsRunAsAtomicReading :
    let s := give (cde8.setFlight .producer (some (putFlight 1))) .consumer .peek []
    s.inited = true ∧ s.rc.idx.toNat < s.cap.toNat ∧ s.cap.toNat ≤ s.cfg.storageBytes ∧
      (∀ w ∈ s.wc :: s.staleWc, w.idx.toNat < s.cap.toNat) ∧ (∀ f ∈ s.portP.flight.toList, isForceWrite f.op = false) ∧
      s.canAccept .consumer (.get 2) ∧ s.canAccept .consumer .getchar ∧ s.canAccept .consumer .peek := by decide

theorem witness_PutAppendsToContent :
    cde8.initedOk ∧ cde8.staleRcOk ∧ cde8.cfg.valid = true ∧ [(1 : Byte), 2].length = (2 : Half).toNat ∧
      cde8.cfg.cursorView = .fresh := by decide

/-- A payload longer than the capacity. -/
theorem witness_PutForceKeepsNewestBytes :
    cde8.initedOk ∧ cde8.cfg.valid = true ∧ (List.replicate 9 (1 : Byte)).length = (9 : Half).toNat := by decide

/-- R39: the content of `ij....gh` is `ghij`. -/
theorem test_content_wraps : wrap8.content = [some 0x67, some 0x68, some 0x69, some 0x6A] := by rfl

theorem witness_GetTakesOldestBytes :
    wrap8.initedOk ∧ wrap8.staleWcOk ∧ wrap8.cfg.valid = true ∧ (∀ x ∈ wrap8.content, x.isSome = true) ∧
      wrap8.cfg.cursorView = .fresh :=
  ⟨by decide, by decide, by decide, by simp [test_content_wraps], by decide⟩

/-- A region that wraps. -/
theorem witness_TwoPeeksExposeEverything :
    wrap8.initedOk ∧ wrap8.cfg.valid = true ∧ wrap8.cfg.cursorView = .fresh ∧ wrap8.content.length = 4 := by decide

/-- With room, and full. -/
theorem witness_PutcharEqualsPutOfOne :
    cde8.initedOk ∧ cde8.staleRcOk ∧ full4.initedOk ∧ full4.staleRcOk ∧ status full4.wc full4.rc = .full := by decide

theorem witness_PutcharForceEqualsPutForceOfOne :
    cde8.initedOk ∧ cde8.cfg.cursorView = .fresh ∧ status cde8.wc cde8.rc ≠ .full ∧ full4.initedOk := by decide

/-- With bytes, and empty. -/
theorem witness_GetcharEqualsGetOfOne :
    cde8.initedOk ∧ cde8.staleWcOk ∧ (ready 4 (cur 1 1) (cur 1 1) []).initedOk ∧ (ready 4 (cur 1 1) (cur 1 1) []).staleWcOk := by
  decide

/-- Before the last cell, and at it. -/
theorem witness_PutcharForceOnFullStepsBoth :
    let u := ready 4 (cur 0 3) (cur 1 3) (cells 0 [0x61, 0x62, 0x63, 0x64])
    (full4.initedOk ∧ full4.cfg.valid = true ∧ status full4.wc full4.rc = .full ∧ full4.wc.idx.toNat < full4.cap.toNat - 1) ∧
      (u.initedOk ∧ u.cfg.valid = true ∧ status u.wc u.rc = .full ∧ u.wc.idx.toNat = u.cap.toNat - 1) := by decide

theorem witness_StepRunsDecodedInstruction :
    let s := scheduled (give cde8 .consumer (.get 2) []) .consumer
    s.sched = [.port .consumer] ∧ (s.port .consumer).flight = none ∧
      (s.port .consumer).pending = [commandOf cde8 .consumer (.get 2) []] ∧ s.agentWaits .consumer = false ∧
      (commandOf cde8 .consumer (.get 2) []).agent = s.cfg.agentOf .consumer ∧
      decode .consumer (commandOf cde8 .consumer (.get 2) []).word = .ok (.get 2) := by decide

theorem witness_StepContinuesOperationInFlight :
    let s := scheduled (cde8.setFlight .producer (some (putFlight 1))) .producer
    s.sched = [.port .producer] ∧ (s.port .producer).flight = some (putFlight 1) := by decide

/-- `GET` presented on port P, and a `PUT 2` word with a reserved bit set and its two bytes, in either mode. -/
theorem witness_IllegalCommandDoesNothing :
    let c := commandOf cde8 .producer (.get 5) []
    let d : Command := { agent := 0, word := 0x81000200#32, payload := [1, 2] }
    let s := scheduled (cde8.issue .producer c) .producer
    let u := scheduled ((withConfig cde8 .assert .fresh 16).issue .producer d) .producer
    (s.sched = [.port .producer] ∧ (s.port .producer).flight = none ∧ (s.port .producer).pending = [c] ∧
      s.agentWaits .producer = false ∧ c.agent = s.cfg.agentOf .producer ∧ decode .producer c.word = .illegal .wrongPort ∧
      carriesPayload c.word = false ∧ s.cfg.assertMode = .degrade) ∧
    (u.sched = [.port .producer] ∧ (u.port .producer).flight = none ∧ (u.port .producer).pending = [d] ∧
      u.agentWaits .producer = false ∧ d.agent = u.cfg.agentOf .producer ∧
      decode .producer d.word = .illegal .reservedField ∧ carriesPayload d.word = true ∧
      d.payload.length = (fieldArg d.word).toNat ∧ u.cfg.assertMode = .assert) := by decide

/-- `PUT 3` with two bytes; `PEEK` with one; a `PUT 3` word with a reserved bit set and two bytes; and agent 7 at port C. -/
theorem witness_MalformedAndForeignCommandsRefused :
    let s := give cde8 .producer (.put 3) [1, 2]
    let r := give cde8 .consumer .peek [1]
    let d : Command := { agent := 0, word := 0x81000300#32, payload := [1, 2] }
    let v := scheduled (cde8.issue .producer d) .producer
    let c : Command := { agent := 7, word := encode .peek, payload := [] }
    let u := scheduled (cde8.issue .consumer c) .consumer
    (s.portP.flight = none ∧ (s.presented .producer).length ≠ (3 : Half).toNat) ∧
      ((r.port (r.portOf .peek)).flight = none ∧ r.presented (r.portOf .peek) ≠ []) ∧
      (v.sched = [.port .producer] ∧ (v.port .producer).flight = none ∧ (v.port .producer).pending = [d] ∧
        v.agentWaits .producer = false ∧ d.agent = v.cfg.agentOf .producer ∧
        decode .producer d.word = .illegal .reservedField ∧ fieldOpc d.word = 8 ∧
        d.payload.length ≠ (fieldArg d.word).toNat) ∧
      u.sched = [.port .consumer] ∧ (u.port .consumer).flight = none ∧ (u.port .consumer).pending = [c] ∧
      u.agentWaits .consumer = false ∧ c.agent ≠ u.cfg.agentOf .consumer := by decide

/-- No port enabled, and one enabled. -/
theorem witness_UnscheduledStepIsSomeEnabledPort :
    (State.reset.sched = [] ∧ ∀ p ∈ [Port.producer, .consumer, .host], State.reset.enabled p = false) ∧
      (give cde8 .consumer .peek []).sched = [] ∧ (give cde8 .consumer .peek []).enabled .consumer = true := by decide

/-- With an operation in flight. -/
theorem witness_PowerOnDiscardsOperationsInFlight :
    { cde8.setFlight .producer (some (putFlight 1)) with sched := [.powerOn] }.sched = [.powerOn] := by decide

/-- A block with `PUT` and `GET` in flight at once, one byte moved by each. -/
def busy8 : State :=
  ({ cde8 with mem := cells 2 [0x63, 0x64, 0x65, 0x66] }.setFlight .producer (some (putFlight 1))).setFlight .consumer
    (some (getFlight [0x63]))

theorem busy8_inv : busy8.Inv :=
  inv_of_parts _ (by decide) (by decide)
    ⟨by decide, by decide, by decide, by decide, by decide, by decide, by decide, by decide⟩

theorem witness_StepKeepsInvariant : (scheduled busy8 .producer).Inv ∧ ∃ t, step (scheduled busy8 .producer) = .next t :=
  ⟨inv_of_parts _ (by decide) (by decide)
    ⟨by decide, by decide, by decide, by decide, by decide, by decide, by decide, by decide⟩, _, rfl⟩

theorem witness_StepKeepsBufferedData :
    (scheduled busy8 .consumer).DataInv ∧ ∃ t, step (scheduled busy8 .consumer) = .next t :=
  ⟨fun _ => ⟨by decide, by decide, by decide⟩, _, rfl⟩

theorem witness_StepKeepsConfigurationAndFaults :
    ∃ t, step (scheduled { busy8 with faults := [.raceForce .peek (.putForce 1)] } .producer) = .next t := ⟨_, rfl⟩

theorem witness_OnlyOwnersWriteState : busy8.Inv ∧ busy8.raceFree ∧ ∃ t, exec (.put 4) busy8 = .next t :=
  ⟨busy8_inv, by decide, _, rfl⟩

theorem witness_OtherPortsUntouched : Port.consumer ≠ busy8.portOf (.put 4) ∧ ∃ t, exec (.put 4) busy8 = .next t :=
  ⟨by decide, _, rfl⟩

/-- A byte still to move on P; on C the last one moved. -/
theorem witness_OperationInFlightProgresses :
    busy8.Inv ∧ busy8.raceFree ∧ (busy8.port .producer).flight = some (putFlight 1) ∧
      (busy8.port .consumer).flight = some (getFlight [0x63]) ∧ (putFlight 1).k < (putFlight 1).plan.n :=
  ⟨busy8_inv, by decide, by decide, by decide, by decide⟩

end Sys2Proof.Tests
end

section
/-! SUPPORT. What no step but a power-on reset changes: the configuration stays (R7) and a recorded fault stays recorded
(R226). Every instruction and every illegal command keeps both; `step` follows by its cases. -/

namespace Sys2Proof.Machine

/-- `t` has the configuration of `s`, and every fault recorded in `s` (R7, R226). -/
structure KeepsRecord (s t : State) : Prop where
  cfg : t.cfg = s.cfg
  faults : s.faults ⊆ t.faults

/-- Every next state `run` answers keeps the record of the state it starts from. -/
def Recording (run : State → Result) : Prop := ∀ s t, run s = .next t → KeepsRecord s t

/-! ### State updates -/

namespace KeepsRecord

variable {s t u : State}

theorem refl (s : State) : KeepsRecord s s := ⟨rfl, List.Subset.refl _⟩

theorem trans (h : KeepsRecord s t) (h' : KeepsRecord t u) : KeepsRecord s u :=
  ⟨h'.cfg.trans h.cfg, List.Subset.trans h.faults h'.faults⟩

/-- An update that leaves both fields keeps the record. -/
theorem of_eq (h : KeepsRecord s t) (hc : u.cfg = t.cfg) (hf : u.faults = t.faults) : KeepsRecord s u :=
  ⟨hc.trans h.cfg, hf ▸ h.faults⟩

theorem raise (h : KeepsRecord s t) (f : RecordedFault) : KeepsRecord s (t.raise f) :=
  ⟨h.cfg, fun _ hg => t.mem_raise_faults.mpr (.inr (h.faults hg))⟩

theorem raiseIf (h : KeepsRecord s t) : (o : Option RecordedFault) → KeepsRecord s (t.raiseIf o)
  | none => h
  | some f => h.raise f

theorem raiseAsserting (h : KeepsRecord s t) (f : RecordedFault) : KeepsRecord s (t.raiseAsserting f) := by
  cases hm : t.cfg.assertMode with
  | degrade => rwa [t.raiseAsserting_degrade f hm]
  | assert => rw [t.raiseAsserting_assert f hm]; exact h.raise f

theorem violated (h : KeepsRecord s t) (i : Instr) : (o : Option RecordedFault) → KeepsRecord s (t.violated o i)
  | none => h.raiseAsserting _
  | some _ => h

end KeepsRecord

/-! ### Shared operations -/

theorem recording_next {g : State → State} (h : ∀ s, KeepsRecord s (g s)) : Recording fun s => .next (g s) := by
  rintro s _ ⟨⟩
  exact h s

theorem accepting_recording {p : Port} {i : Instr} {run : List Byte → State → Result}
    (hr : ∀ d, Recording (run d)) : Recording fun s => accepting p i s run := by
  intro s t h
  obtain ⟨-, -, h⟩ := accepting_next.mp h
  have ha : KeepsRecord s (s.accept p) := (KeepsRecord.refl s).of_eq rfl rfl
  exact ha.trans (hr _ _ t h)

theorem phased_recording {p : Port} {i : Instr} {sam : List Byte → State → Result} {xfer com : Flight → State → Result}
    (hs : ∀ d, Recording (sam d)) (hx : ∀ f, Recording (xfer f)) (hc : ∀ f, Recording (com f)) :
    Recording (phased p i sam xfer com) := by
  intro s t h
  obtain ⟨-, h⟩ | ⟨f, -, -, ⟨-, h⟩ | ⟨-, h⟩⟩ := phased_next h
  · exact accepting_recording hs s t h
  · exact hx f s t h
  · exact hc f s t h

theorem sample_recording {p : Port} {i : Instr} {race : Instr → State → Option RecordedFault} {now : Bool}
    {plan : Snapshot → Plan} {data : List Byte} : Recording (sample p i race now plan data) := by
  intro s t h
  have hr : KeepsRecord s (s.raiseIf (race i s)) := (KeepsRecord.refl s).raiseIf _
  cases hi : s.inited with
  | true => rw [sample_inited hi] at h; cases h; exact hr.of_eq rfl rfl
  | false => rw [sample_uninit hi] at h; cases h; exact (hr.violated i _).of_eq rfl rfl

theorem storeXfer_recording (p : Port) (f : Flight) : Recording (storeXfer p f) := by
  intro s t h
  obtain ⟨-, v, -, rfl⟩ := storeXfer_next h
  exact (KeepsRecord.refl s).of_eq rfl rfl

theorem loadXfer_recording (p : Port) (f : Flight) : Recording (loadXfer p f) := by
  intro s t h
  obtain ⟨-, rfl⟩ := loadXfer_next h
  exact (KeepsRecord.refl s).of_eq rfl rfl

theorem commit_recording (p : Port) (answer : Flight → Response) (f : Flight) : Recording (commit p answer f) :=
  recording_next fun s => (KeepsRecord.refl s).of_eq rfl rfl

theorem query_recording (i : Instr) (answer : Snapshot → Half) : Recording (query i answer) := by
  intro s t h
  obtain ⟨-, -, rfl⟩ := query_next h
  split <;> exact (KeepsRecord.refl s).of_eq rfl rfl

/-! ### Instructions -/

theorem bindStorage_recording (i : Instr) (capReq : Half) : Recording (bindStorage i capReq) := by
  refine accepting_recording fun _ s t h => ?_
  have hr : KeepsRecord s (s.raiseIf (lifecycleRace i s)) := (KeepsRecord.refl s).raiseIf _
  split at h
  · cases h; exact (hr.violated i _).of_eq rfl rfl
  · cases h; exact hr.of_eq rfl rfl

theorem execDestroy_recording : Recording execDestroy :=
  accepting_recording fun _ => recording_next fun s => ((KeepsRecord.refl s).raiseIf _).of_eq rfl rfl

theorem execReset_recording : Recording execReset := by
  refine accepting_recording fun _ s t h => ?_
  have hr : KeepsRecord s (s.raiseIf (lifecycleRace .reset s)) := (KeepsRecord.refl s).raiseIf _
  split at h <;> cases h <;> exact hr.of_eq rfl rfl

theorem execRdmem_recording (idx : Half) : Recording (execRdmem idx) := by
  refine accepting_recording fun _ s t h => ?_
  split at h
  · split at h
    · cases h; exact (KeepsRecord.refl s).of_eq rfl rfl
    · cases h
  · cases h; exact ((KeepsRecord.refl s).violated _ none).of_eq rfl rfl

/-- A write operation is its `SAMPLE`, its stores and its `COMMIT` (R62). -/
theorem write_recording {i : Instr} {race : Instr → State → Option RecordedFault} {now : Bool} {plan : Snapshot → Plan}
    {data : List Byte → List Byte} {answer : Flight → Response} :
    Recording (phased .producer i (fun d => sample .producer i race now plan (data d)) (storeXfer .producer)
      (commit .producer answer)) :=
  phased_recording (fun _ => sample_recording) (storeXfer_recording _) (commit_recording _ _)

/-- A read operation that moves bytes is its `SAMPLE`, its loads and its `COMMIT` (R62). -/
theorem read_recording {i : Instr} {race : Instr → State → Option RecordedFault} {now : Bool} {plan : Snapshot → Plan}
    {answer : Flight → Response} :
    Recording (phased .consumer i (fun d => sample .consumer i race now plan d) (loadXfer .consumer)
      (commit .consumer answer)) :=
  phased_recording (fun _ => sample_recording) (loadXfer_recording _) (commit_recording _ _)

theorem execPeek_recording : Recording execPeek :=
  phased_recording (fun _ => sample_recording) (commit_recording _ _) (commit_recording _ _)

/-- No step of an instruction changes the configuration or removes a recorded fault (R7, R226). -/
theorem exec_recording (i : Instr) : Recording (exec i) := by
  cases i with
  | init capReq | create capReq => exact bindStorage_recording _ capReq
  | reset => exact execReset_recording
  | destroy => exact execDestroy_recording
  | status | dataLen | freeLen =>
    intro s t h
    simp only [exec, execStatus, execDataLen, execFreeLen] at h
    exact query_recording _ _ s t h
  | put | putForce => exact write_recording (data := id)
  | putchar b | putcharForce b => exact write_recording (data := fun _ => [b])
  | get | getchar => exact read_recording
  | peek => exact execPeek_recording
  | rdmem idx => exact execRdmem_recording idx

/-! ### Steps -/

theorem illegalStep_recording (p : Port) (c : Command) : Recording (illegalStep p c) := by
  intro s t h
  unfold illegalStep at h
  split at h
  · cases h
  · cases h
    have ha : KeepsRecord s (s.accept p) := (KeepsRecord.refl s).of_eq rfl rfl
    exact (ha.raiseAsserting _).of_eq rfl rfl

/-- What a selected step answers. -/
def Selected.outcome : Selected → Result
  | .done o => o
  | .exec i s => Machine.exec i s

theorem step_eq_outcome (s : State) : step s = (select s).outcome := rfl

theorem fetch_recording (p : Port) : Recording fun s => (fetch p s).outcome := by
  intro s t h
  have hturn : KeepsRecord s (s.setTurn p) := (KeepsRecord.refl s).of_eq rfl rfl
  simp only at h
  obtain ⟨f, -, hf⟩ | ⟨-, -, hf⟩ | ⟨c, -, -, -, -, ⟨-, hf⟩ | ⟨-, i, -, hf⟩ | ⟨-, -, -, hf⟩⟩ := fetch_cases p s
  all_goals rw [hf] at h
  · exact hturn.trans (exec_recording f.op _ t h)
  · cases h; exact .refl s
  · cases h
  · exact hturn.trans (exec_recording i _ t h)
  · exact hturn.trans (illegalStep_recording p c _ t h)

/-- Only a power-on reset removes a recorded fault, and even it keeps the configuration (R7, R226, R260). -/
theorem step_powerOn_or_keepsRecord {s t : State} (h : step s = .next t) :
    (s.sched.head? = some .powerOn ∧ t.cfg = s.cfg) ∨ KeepsRecord s t := by
  rw [step_eq_outcome] at h
  obtain ⟨rest, hs, hsel⟩ | ⟨p, rest, -, hsel⟩ | ⟨-, -, hsel⟩ | ⟨p, -, -, hsel⟩ := select_cases s
  all_goals rw [hsel] at h
  · cases h; exact .inl ⟨by rw [hs]; rfl, rfl⟩
  · have hsched : KeepsRecord s { s with sched := rest } := ⟨rfl, List.Subset.refl _⟩
    exact .inr (hsched.trans (fetch_recording p _ t h))
  · cases h; exact .inr (.refl s)
  · have hdraw : KeepsRecord s { s with draws := s.draws + 1 } := ⟨rfl, List.Subset.refl _⟩
    exact .inr (hdraw.trans (fetch_recording p _ t h))

/-- Settles O57, from the cases of a step: a power-on reset keeps the configuration, any other step the whole record. -/
theorem stepKeepsConfigurationAndFaults : Obligations.StepKeepsConfigurationAndFaults := by
  intro s t h
  obtain ⟨hp, hc⟩ | hk := step_powerOn_or_keepsRecord h
  · exact ⟨hc, fun hn => absurd hp hn⟩
  · exact ⟨hk.cfg, fun _ _ hf => hk.faults hf⟩

end Sys2Proof.Machine
end

section
/-! SUPPORT. The comparator and the multiplexer as counters (R36, R37): two cursors in lap order are one cursor and its
advance by `dataLen` bytes, and every fact about lengths, laps and cells follows from adding up advances. -/

namespace Sys2Proof.Machine

/-- The two cursors lie in a buffer of `cap` bytes and in the lap order of R36; `cap` fits the index register (R58). -/
structure InLapOrder (w r : Cursor) (cap : Nat) : Prop where
  small : cap < 32768
  wIdx : w.idx.toNat < cap
  rIdx : r.idx.toNat < cap
  order : lapOrder w r

theorem cursor_eq_iff (a b : Cursor) : a = b ↔ a.lap = b.lap ∧ a.idx.toNat = b.idx.toNat := by
  rw [← idx_eq_iff]
  cases a
  cases b
  simp

section Advance

variable {c w r : Cursor} {m n d i j cap : Nat}

theorem adv_idx_lt (hc : c.idx.toNat < cap) (hn : n ≤ cap) (hs : cap < 32768) : (adv c n cap).idx.toNat < cap := by
  rw [adv_idx_toNat hc hn hs]
  split <;> omega

/-- Two advances in a row are one advance by the sum (R37). -/
theorem adv_adv (hs : cap < 32768) (hc : c.idx.toNat < cap) (h : m + n ≤ cap) :
    adv (adv c m cap) n cap = adv c (m + n) cap := by
  have hm := adv_idx_toNat (n := m) hc (by omega) hs
  rw [cursor_eq_iff, adv_idx_toNat (adv_idx_lt hc (by omega) hs) (by omega) hs, adv_idx_toNat hc h hs]
  simp only [adv_lap, hm]
  split_ifs <;> simp <;> omega

/-- The cell at an offset is the one the advanced cursor points at (R54, R55). -/
theorem addr_eq_adv_idx (hs : cap < 32768) (hc : c.idx.toNat < cap) (hi : i ≤ cap) :
    addr c i cap = (adv c i cap).idx.toNat := by
  rw [adv_idx_toNat hc hi hs, addr]

/-- Offsets count on across an advance (R54, R55). -/
theorem addr_adv (hs : cap < 32768) (hc : c.idx.toNat < cap) (h : m + i ≤ cap) :
    addr (adv c m cap) i cap = addr c (m + i) cap := by
  rw [addr_eq_adv_idx hs (adv_idx_lt hc (by omega) hs) (by omega), adv_adv hs hc h, addr_eq_adv_idx hs hc h]

/-- Past the whole buffer, the offsets from an advanced cursor are those from the old one again (R54). -/
theorem addr_adv_wraps (hs : cap < 32768) (hc : c.idx.toNat < cap) (hm : m ≤ cap) (hi : i < cap) (h : cap ≤ m + i) :
    addr (adv c m cap) i cap = addr c (m + i - cap) cap := by
  unfold addr
  rw [adv_idx_toNat hc hm hs]
  split_ifs <;> omega

/-- Different offsets below `cap` are different cells (R54). -/
theorem addr_inj (hi : i < cap) (hj : j < cap) : addr c i cap = addr c j cap ↔ i = j := by
  unfold addr
  split_ifs <;> omega

/-- From a cursor to its advance by `d` bytes there are `d` bytes (R31, R37). -/
theorem dataLen_adv (hs : cap < 32768) (hc : c.idx.toNat < cap) (hd : d ≤ cap) : dataLen (adv c d cap) c cap = d := by
  rw [dataLen_eq, adv_idx_toNat hc hd hs, adv_lap]
  by_cases hwrap : cap ≤ c.idx.toNat + d
  · simp only [hwrap, if_true, Bool.not_eq_self, if_false]
    split_ifs <;> omega
  · simp only [hwrap, if_false, if_true]
    split_ifs <;> omega

/-- A cursor's advance by at most `cap` bytes is in lap order with it (R36). -/
theorem inLapOrder_adv (hs : cap < 32768) (hc : c.idx.toNat < cap) (hd : d ≤ cap) : InLapOrder (adv c d cap) c cap := by
  refine ⟨hs, adv_idx_lt hc hd hs, hc, ?_⟩
  rw [lapOrder, adv_idx_toNat hc hd hs, adv_lap]
  split_ifs <;> simp
  omega

theorem InLapOrder.dataLen_le (h : InLapOrder w r cap) : dataLen w r cap ≤ cap := by
  obtain ⟨-, hw, hr, -⟩ := h
  rw [dataLen_eq]
  split_ifs <;> omega

theorem freeLen_le (w r : Cursor) (cap : Nat) : freeLen w r cap ≤ cap := Nat.sub_le _ _

/-- The free and the buffered bytes make up the buffer (R35). -/
theorem InLapOrder.dataLen_add_freeLen (h : InLapOrder w r cap) : dataLen w r cap + freeLen w r cap = cap :=
  Nat.add_sub_cancel' h.dataLen_le

/-- The write cursor is the read cursor advanced by the number of buffered bytes (R36, R37). -/
theorem InLapOrder.adv_dataLen (h : InLapOrder w r cap) : adv r (dataLen w r cap) cap = w := by
  have hd := h.dataLen_le
  obtain ⟨hs, hw, hr, hsame, hdiff⟩ := h
  rw [cursor_eq_iff, adv_idx_toNat hr hd hs, adv_lap, dataLen_eq]
  by_cases hl : w.lap = r.lap
  · have := hsame hl
    simp only [hl, if_true]
    split_ifs <;> simp <;> omega
  · have := hdiff hl
    have hn : (!r.lap) = w.lap := (Bool.eq_not.mpr hl).symm
    simp only [hl, if_false, hn]
    split_ifs <;> simp [Ne.symm hl] <;> omega

/-- A commit of at most the free length to the write cursor keeps the lap order (R36). -/
theorem InLapOrder.adv_wc (h : InLapOrder w r cap) (hn : n ≤ freeLen w r cap) : InLapOrder (adv w n cap) r cap := by
  have := h.dataLen_add_freeLen
  rw [← h.adv_dataLen, adv_adv h.small h.rIdx (by omega)]
  exact inLapOrder_adv h.small h.rIdx (by omega)

/-- ... and adds as much to the data length (R36). -/
theorem InLapOrder.dataLen_adv_wc (h : InLapOrder w r cap) (hn : n ≤ freeLen w r cap) :
    dataLen (adv w n cap) r cap = dataLen w r cap + n := by
  have := h.dataLen_add_freeLen
  conv_lhs => rw [← h.adv_dataLen, adv_adv h.small h.rIdx (by omega)]
  exact dataLen_adv h.small h.rIdx (by omega)

/-- From an advanced read cursor on, what is left of the buffered bytes leads to the write cursor. -/
theorem InLapOrder.adv_rc_adv (h : InLapOrder w r cap) (hn : n ≤ dataLen w r cap) :
    adv (adv r n cap) (dataLen w r cap - n) cap = w := by
  have := h.dataLen_le
  rw [adv_adv h.small h.rIdx (by omega), Nat.add_sub_cancel' hn, h.adv_dataLen]

/-- A commit of at most the data length to the read cursor keeps the lap order (R36). -/
theorem InLapOrder.adv_rc (h : InLapOrder w r cap) (hn : n ≤ dataLen w r cap) : InLapOrder w (adv r n cap) cap := by
  have hd := h.dataLen_le
  have hlt := adv_idx_lt (n := n) h.rIdx (by omega) h.small
  simpa only [h.adv_rc_adv hn] using inLapOrder_adv (d := dataLen w r cap - n) h.small hlt (by omega)

/-- ... and takes as much from the data length (R36). -/
theorem InLapOrder.dataLen_adv_rc (h : InLapOrder w r cap) (hn : n ≤ dataLen w r cap) :
    dataLen w (adv r n cap) cap = dataLen w r cap - n := by
  have hd := h.dataLen_le
  have hlt := adv_idx_lt (n := n) h.rIdx (by omega) h.small
  simpa only [h.adv_rc_adv hn] using dataLen_adv (d := dataLen w r cap - n) h.small hlt (by omega)

/-- The first free cell follows the last buffered one (R54). -/
theorem InLapOrder.addr_wc (h : InLapOrder w r cap) (hi : dataLen w r cap + i ≤ cap) :
    addr w i cap = addr r (dataLen w r cap + i) cap := by
  conv_lhs => rw [← h.adv_dataLen]
  exact addr_adv h.small h.rIdx hi

/-- Past the free cells come the buffered ones again, the oldest first (R54). -/
theorem InLapOrder.addr_wc_wraps (h : InLapOrder w r cap) (hi : i < cap) (hd : cap ≤ dataLen w r cap + i) :
    addr w i cap = addr r (dataLen w r cap + i - cap) cap := by
  conv_lhs => rw [← h.adv_dataLen]
  exact addr_adv_wraps h.small h.rIdx h.dataLen_le hi hd

/-- No free cell is a buffered one (R79). -/
theorem InLapOrder.addr_wc_ne (h : InLapOrder w r cap) (hi : i < freeLen w r cap) (hj : j < dataLen w r cap) :
    addr w i cap ≠ addr r j cap := by
  have := h.dataLen_add_freeLen
  rw [h.addr_wc (by omega), ne_eq, addr_inj (by omega) (by omega)]
  omega

/-- The comparator says `EMPTY` exactly when no byte is buffered (R30, R31). -/
theorem InLapOrder.status_empty_iff (h : InLapOrder w r cap) : status w r = .empty ↔ dataLen w r cap = 0 := by
  obtain ⟨-, hw, hr, -⟩ := h
  simp only [dataLen_eq, status, idx_eq_iff]
  split_ifs <;> simp <;> omega

/-- The comparator says `FULL` exactly when `cap` bytes are buffered (R30, R31). -/
theorem InLapOrder.status_full_iff (h : InLapOrder w r cap) : status w r = .full ↔ dataLen w r cap = cap := by
  obtain ⟨-, hw, hr, hsame, hdiff⟩ := h
  simp only [dataLen_eq, status, idx_eq_iff]
  split_ifs with hidx hlap <;> simp <;> omega

/-- After an overwrite the read cursor stands a whole buffer behind the write cursor (R176, R178). -/
theorem forcedRead_full (hs : cap < 32768) (hc : c.idx.toNat < cap) :
    InLapOrder c (forcedRead c) cap ∧ dataLen c (forcedRead c) cap = cap := by
  constructor
  · exact ⟨hs, hc, hc, by simp [lapOrder, forcedRead]⟩
  · simp [dataLen_eq, forcedRead]

end Advance

/-- Settles O10: both commits are one more advance. -/
theorem advanceKeepsLapOrder : Obligations.AdvanceKeepsLapOrder := by
  intro w r n cap hw hr hs ho
  have h : InLapOrder w r cap := ⟨hs, hw, hr, ho⟩
  refine ⟨fun hn => ⟨(h.adv_wc hn).order, h.dataLen_adv_wc hn⟩, fun hn => ⟨(h.adv_rc hn).order, ?_⟩⟩
  rw [h.dataLen_adv_rc hn, Nat.sub_add_cancel hn]

/-! ### The counter view -/

theorem counterCursor_idx_toNat {total cap : Nat} (h0 : 0 < cap) (hs : cap < 32768) :
    (counterCursor total cap).idx.toNat = total % cap :=
  idx_toNat_ofNat (Nat.lt_trans (Nat.mod_lt _ h0) hs)

/-- An advance adds to the total a cursor stands for (R37). -/
theorem adv_counterCursor {total n cap : Nat} (h0 : 0 < cap) (hs : cap < 32768) (hn : n ≤ cap) :
    adv (counterCursor total cap) n cap = counterCursor (total + n) cap := by
  have hi := counterCursor_idx_toNat (total := total) h0 hs
  have hlt : total % cap < cap := Nat.mod_lt _ h0
  have hsplit := Nat.div_add_mod total cap
  rw [cursor_eq_iff, adv_lap, adv_idx_toNat (by omega) hn hs, hi, counterCursor_idx_toNat h0 hs]
  by_cases hw : cap ≤ total % cap + n
  · have hdm : (total + n) / cap = total / cap + 1 ∧ (total + n) % cap = total % cap + n - cap :=
      (Nat.div_mod_unique h0).mpr ⟨by rw [Nat.mul_add]; omega, by omega⟩
    simp only [hw, if_true, counterCursor, hdm, and_true]
    rw [← decide_not]
    exact decide_eq_decide.mpr (by omega)
  · have hdm : (total + n) / cap = total / cap ∧ (total + n) % cap = total % cap + n :=
      (Nat.div_mod_unique h0).mpr ⟨by omega, by omega⟩
    simp only [hw, if_false, counterCursor, hdm, and_true]

/-- Settles O9: the write cursor is the read cursor advanced by the difference of the totals. -/
theorem comparatorCountsBytes : Obligations.ComparatorCountsBytes := by
  intro cap W R h0 hs hRW hWR
  have hlt : (counterCursor R cap).idx.toNat < cap := by
    rw [counterCursor_idx_toNat h0 hs]
    exact Nat.mod_lt _ h0
  have hadv : adv (counterCursor R cap) (W - R) cap = counterCursor W cap := by
    rw [adv_counterCursor h0 hs (by omega), Nat.add_sub_cancel' hRW]
  have ho : InLapOrder (counterCursor W cap) (counterCursor R cap) cap := hadv ▸ inLapOrder_adv hs hlt (by omega)
  have hd : dataLen (counterCursor W cap) (counterCursor R cap) cap = W - R :=
    hadv ▸ dataLen_adv hs hlt (by omega)
  refine ⟨hd, ?_, by rw [ho.status_full_iff, hd], fun n hn => adv_counterCursor h0 hs hn⟩
  rw [ho.status_empty_iff, hd]
  omega

end Sys2Proof.Machine
end

section
/-! SUPPORT. One form for every instruction of a family, and, per family, every next state it can answer; the frames of
R26 are read off these. -/

namespace Sys2Proof.Machine

/-! ### Lifecycle operations -/

/-- What binding or unbinding the block may leave: after `RESET` what was there, after `DESTROY` nothing, after `INIT`
and `CREATE` a requested capacity that does not fail (R131, R132). -/
inductive Binds (s : State) : Instr → Bool → Idx → Prop
  | init (c : Half) (h : initFails s.cfg c = false) : Binds s (.init c) true (boundCap c)
  | create (c : Half) (h : initFails s.cfg c = false) : Binds s (.create c) true (boundCap c)
  | destroy : Binds s .destroy false 0
  | reset (h : s.inited = true) : Binds s .reset true s.cap

theorem Binds.of_reset {s : State} {b : Bool} {c : Idx} (h : Binds s .reset b c) : b = s.inited ∧ c = s.cap := by
  cases h with
  | reset hi => exact ⟨hi.symm, rfl⟩

theorem Binds.isLifecycle {s : State} {i : Instr} {b : Bool} {c : Idx} (h : Binds s i b c) : isLifecycle i = true := by
  cases h <;> rfl

/-- Every next state of a lifecycle operation (R130 to R145): `u` has accepted the command and recorded a race, if
any. -/
inductive LifecycleStep (i : Instr) (s u : State) : State → Prop
  | failed (r : Response) : LifecycleStep i s u ((u.violated (lifecycleRace i (s.accept .host)) i).respond .host r)
  | nothing (r : Response) : LifecycleStep i s u (u.respond .host r)
  | bound (r : Response) (b : Bool) (c : Idx) (h : Binds s i b c) : LifecycleStep i s u ((u.bound b c).respond .host r)

theorem bindStorage_next {i : Instr} {c : Half} {s t : State}
    (hb : initFails s.cfg c = false → Binds s i true (boundCap c)) (h : bindStorage i c s = .next t) :
    LifecycleStep i s ((s.accept .host).raiseIf (lifecycleRace i (s.accept .host))) t := by
  obtain ⟨-, -, h⟩ := accepting_next.mp h
  split at h
  · cases h; exact .failed _
  · cases h; exact .bound _ _ _ (hb (by simpa using ‹¬initFails (s.accept .host).cfg c = true›))

theorem exec_lifecycle_next {i : Instr} {s t : State} (hi : isLifecycle i = true) (h : exec i s = .next t) :
    LifecycleStep i s ((s.accept .host).raiseIf (lifecycleRace i (s.accept .host))) t := by
  cases i with
  | init c => exact bindStorage_next (.init c) h
  | create c => exact bindStorage_next (.create c) h
  | destroy =>
    rw [exec, execDestroy] at h
    obtain ⟨-, -, h⟩ := accepting_next.mp h
    cases h
    exact .bound _ _ _ .destroy
  | reset =>
    rw [exec, execReset] at h
    obtain ⟨-, -, h⟩ := accepting_next.mp h
    split at h
    · cases h; exact .bound _ _ _ (.reset ‹_›)
    · cases h; exact .nothing _
  | _ => cases hi

/-- Settles O17, from the three next states of a lifecycle operation. -/
theorem lifecycleFrame : Obligations.LifecycleFrame := by
  intro s t i hi h
  have hf : ∀ f ∈ s.faults, f ∈ t.faults := (exec_recording i s t h).faults
  cases exec_lifecycle_next hi h with
  | failed | nothing => simpa [sameCells, sameSetting] using hf
  | bound r b c hb =>
    have hreset : i = .reset → b = s.inited ∧ c = s.cap := fun hi => (hi ▸ hb).of_reset
    simpa [sameCells, sameSetting] using ⟨hf, hreset⟩

/-! ### Queries -/

/-- The value a query gives of an initialised block (R151 to R153). -/
def queryAnswer : Instr → Snapshot → Half
  | .status, v => statusCode (status v.wc v.rc)
  | .dataLen, v => BitVec.ofNat 16 (dataLen v.wc v.rc v.cap.toNat)
  | _, v => BitVec.ofNat 16 (freeLen v.wc v.rc v.cap.toNat)

theorem exec_query {i : Instr} (hi : isQuery i = true) (s : State) : exec i s = query i (queryAnswer i) s := by
  cases i with
  | status | dataLen | freeLen => rfl
  | _ => cases hi

theorem sampled_now_draws (s : State) (p : Port) : (s.sampled p true).draws = s.draws := by
  simp [State.sampled, State.mayBeStale]

theorem sampled_now_staleRc (s : State) (p : Port) :
    (s.sampled p true).staleRc = if p = .producer then [] else s.staleRc := by
  simp [State.sampled, State.mayBeStale]

theorem sampled_now_staleWc (s : State) (p : Port) :
    (s.sampled p true).staleWc = if p = .consumer then [] else s.staleWc := by
  simp [State.sampled, State.mayBeStale]

/-- A query that can be accepted answers at once (R150). -/
theorem query_answers {s : State} {i : Instr} (hi : isQuery i = true) (h : s.canAccept s.turn i) :
    ∃ t, exec i s = .next t ∧ sameRegisters s t ∧ t.mem = s.mem ∧ t.faults = s.faults ∧
      answeredAtOnce s.turn
        (Response.value (if s.inited = false then 0 else queryAnswer i { cap := s.cap, wc := s.wc, rc := s.rc }))
        s t := by
  obtain ⟨hidle, hlen⟩ := h
  rw [exec_query hi, query, accepting_eq (by simp [State.busy, hidle]) hlen]
  cases hb : s.inited with
  | false =>
    refine ⟨_, by rw [if_neg (by simp [hb])], ?_⟩
    simp +contextual [sameRegisters, answeredAtOnce, hb, Response.zero]
  | true =>
    refine ⟨_, by rw [if_pos (by simp [hb])], ?_⟩
    simp +contextual [sameRegisters, answeredAtOnce, hb, State.snapshot_now]

/-- Settles O18. -/
theorem statusAnswersCode : Obligations.StatusAnswersCode := by
  intro s h
  have hv : queryAnswer .status { cap := s.cap, wc := s.wc, rc := s.rc } =
      if s.wc.idx = s.rc.idx then (if s.wc.lap = s.rc.lap then 0 else 1) else 2 := by
    simp only [queryAnswer, status]
    split_ifs <;> rfl
  simpa only [hv, Response.value] using query_answers rfl h

/-- Settles O19. -/
theorem dataLenAnswersCount : Obligations.DataLenAnswersCount := by
  intro s h
  have hv : queryAnswer .dataLen { cap := s.cap, wc := s.wc, rc := s.rc } =
      if s.wc.idx = s.rc.idx then (if s.wc.lap = s.rc.lap then 0 else s.cap.setWidth 16)
      else if s.rc.idx.toNat < s.wc.idx.toNat then BitVec.ofNat 16 (s.wc.idx.toNat - s.rc.idx.toNat)
      else BitVec.ofNat 16 (s.cap.toNat - (s.rc.idx.toNat - s.wc.idx.toNat)) := by
    simp only [queryAnswer, dataLen_eq, idx_eq_iff]
    split_ifs <;> simp
  simpa only [hv, Response.value] using query_answers rfl h

/-- Settles O20. -/
theorem freeLenAnswersCount : Obligations.FreeLenAnswersCount := by
  intro s h
  have hv : queryAnswer .freeLen { cap := s.cap, wc := s.wc, rc := s.rc } =
      if s.wc.idx = s.rc.idx then (if s.wc.lap = s.rc.lap then s.cap.setWidth 16 else 0)
      else if s.rc.idx.toNat < s.wc.idx.toNat then
        BitVec.ofNat 16 (s.cap.toNat - (s.wc.idx.toNat - s.rc.idx.toNat))
      else BitVec.ofNat 16 (s.cap.toNat - (s.cap.toNat - (s.rc.idx.toNat - s.wc.idx.toNat))) := by
    simp only [queryAnswer, freeLen, dataLen_eq, idx_eq_iff]
    split_ifs <;> simp
  simpa only [hv, Response.value] using query_answers rfl h

/-- Settles O22, from the two next states of a query. -/
theorem queryFrame : Obligations.QueryFrame := by
  intro s t i hi h
  rw [exec_query hi] at h
  obtain ⟨-, -, rfl⟩ := query_next h
  cases hb : s.inited with
  | false =>
    simp +contextual [sameRegisters, sameCells, sameSetting, apply_ite PortState.flight]
  | true =>
    simp +contextual [sameRegisters, sameCells, sameSetting, apply_ite PortState.flight, sampled_now_draws,
      sampled_now_staleRc, sampled_now_staleWc]

/-- The registers of an initialised block are two cursors in lap order (R34, R36). -/
theorem inLapOrder_of_initedOk {s : State} (h : s.initedOk) : InLapOrder s.wc s.rc s.cap.toNat := by
  obtain ⟨-, -, -, -, hw, hr, ho⟩ := h
  exact ⟨s.cap.isLt, hw, hr, ho⟩

/-- Settles O21: the two answers are the buffered and the free bytes of the same buffer. -/
theorem lengthsSumToCapacity : Obligations.LengthsSumToCapacity := by
  rintro s t ⟨-, -, hq⟩ hr ⟨hinit, hcap, hwc, hrc⟩ hs ht
  obtain ⟨hinited, huninit, -⟩ := hq hr
  obtain ⟨s', hs', -, -, -, has⟩ := query_answers rfl hs
  obtain ⟨t', ht', -, -, -, hat⟩ := query_answers rfl ht
  refine ⟨s', t', _, _, hs', ht', has, hat, ?_⟩
  cases hb : s.inited with
  | false =>
    obtain ⟨hc, -⟩ := huninit hb
    simp [hinit, hb, hc]
  | true =>
    have ho := inLapOrder_of_initedOk (hinited hb)
    have hsum := ho.dataLen_add_freeLen
    have hsmall := ho.small
    simp only [hinit, hb, queryAnswer, hcap, hwc, hrc, Bool.true_eq_false, if_false, BitVec.toNat_ofNat]
    rw [Nat.mod_eq_of_lt (by omega), Nat.mod_eq_of_lt (by omega)]
    exact ⟨hsum, nofun⟩

/-! ### Operations in three phases -/

/-- Every next state of an operation in three phases (R62): `u` has accepted the command and recorded a race, if any. -/
inductive PhaseStep (p : Port) (i : Instr) (now : Bool) (plan : Snapshot → Plan) (data : List Byte)
    (xfer commit : Flight → State → Result) (s u t : State) : Prop
  | uninit (o : Option RecordedFault) (hidle : (s.port p).flight = none) (hi : s.inited = false)
      (h : t = (u.violated o i).respond p Response.zero)
  | started (hidle : (s.port p).flight = none) (hi : s.inited = true) (hlen : (s.presented p).length = payloadLen i)
      (h : t = (u.sampled p now).setFlight p
        (some { op := i, plan := plan (s.snapshot p now), data := data, k := 0, out := [] }))
  | moved (f : Flight) (hf : (s.port p).flight = some f) (hop : f.op = i) (hk : f.k < f.plan.n) (h : xfer f s = .next t)
  | committed (f : Flight) (hf : (s.port p).flight = some f) (hop : f.op = i) (hk : f.plan.n ≤ f.k ∨ i = .peek)
      (h : commit f s = .next t)

theorem phased_sample_next {p : Port} {i : Instr} {race : Instr → State → Option RecordedFault} {now : Bool}
    {plan : Snapshot → Plan} {data : List Byte → List Byte} {xfer com : Flight → State → Result} {s t : State}
    (h : phased p i (fun d t => sample p i race now plan (data d) t) xfer com s = .next t) :
    PhaseStep p i now plan (data (s.presented p)) xfer com s ((s.accept p).raiseIf (race i (s.accept p))) t := by
  obtain ⟨hidle, h⟩ | ⟨f, hf, hop, ⟨hk, h⟩ | ⟨hk, h⟩⟩ := phased_next h
  · obtain ⟨-, hlen, h⟩ := accepting_next.mp h
    cases hi : s.inited with
    | true =>
      rw [sample_inited (s := s.accept p) hi] at h
      cases h
      exact .started hidle hi hlen rfl
    | false =>
      rw [sample_uninit (s := s.accept p) hi] at h
      cases h
      exact .uninit _ hidle hi rfl
  · exact .moved f hf hop hk h
  · exact .committed f hf hop (.inl hk) h

/-- The plan of each write operation (R166, R172, R206, R214). -/
def writeOpPlan : Instr → Snapshot → Plan
  | .put len => putPlan len
  | .putForce len => putForcePlan len
  | .putchar _ => putcharPlan
  | _ => putcharForcePlan

/-- The bytes each write operation stores, from the payload presented (R97, R206). -/
def writeOpData : Instr → List Byte → List Byte
  | .putchar b, _ => [b]
  | .putcharForce b, _ => [b]
  | _, d => d

/-- The race each write operation checks for (R270). -/
def writeOpRace (i : Instr) : Instr → State → Option RecordedFault :=
  if isForceWrite i then forceWriteRace else noRace

/-- The four write operations are one operation in three phases (R62); the force writes sample the present (R71). -/
theorem exec_write {i : Instr} (hi : writesCells i = true) (s : State) :
    exec i s = phased .producer i
      (fun d t => sample .producer i (writeOpRace i) (isForceWrite i) (writeOpPlan i) (writeOpData i d) t)
      (storeXfer .producer) (commit .producer countResponse) s := by
  cases i with
  | put | putForce | putchar | putcharForce => rfl
  | _ => cases hi

/-- The bytes each read operation takes (R59, R187, R193, R210). -/
def readOpCount : Instr → Snapshot → Nat
  | .get len, v => getCount len v
  | .getchar, v => getcharCount v
  | _, v => peekCount v

/-- The response of each read operation (R101). -/
def readOpResponse : Instr → Flight → Response
  | .get _ => getResponse
  | .getchar => getcharResponse
  | _ => peekResponse

/-- The step each read operation takes while it counts bytes to move: `PEEK` moves none and commits (R62). -/
def readOpXfer (i : Instr) : Flight → State → Result :=
  if i = .peek then commit .consumer (readOpResponse i) else loadXfer .consumer

/-- The three read operations that move the read cursor are one operation in three phases (R62). -/
theorem exec_read {i : Instr} (hi : movesReadCursor i = true) (s : State) :
    exec i s = phased .consumer i
      (fun d t => sample .consumer i readRace false (fun v => readPlan (readOpCount i v) v) d t)
      (readOpXfer i) (commit .consumer (readOpResponse i)) s := by
  cases i with
  | get | getchar | peek => rfl
  | _ => cases hi

/-- Every next state of a write operation. -/
theorem exec_write_next {i : Instr} {s t : State} (hi : writesCells i = true) (h : exec i s = .next t) :
    PhaseStep .producer i (isForceWrite i) (writeOpPlan i) (writeOpData i (s.presented .producer)) (storeXfer .producer)
      (commit .producer countResponse) s ((s.accept .producer).raiseIf (writeOpRace i i (s.accept .producer))) t := by
  rw [exec_write hi] at h
  exact phased_sample_next h

/-- Every next state of a read operation that moves the read cursor. -/
theorem exec_read_next {i : Instr} {s t : State} (hi : movesReadCursor i = true) (h : exec i s = .next t) :
    PhaseStep .consumer i false (fun v => readPlan (readOpCount i v) v) (s.presented .consumer) (loadXfer .consumer)
      (commit .consumer (readOpResponse i)) s ((s.accept .consumer).raiseIf (readRace i (s.accept .consumer))) t := by
  rw [exec_read hi] at h
  cases phased_sample_next (data := id) h with
  | uninit o hidle hi h => exact .uninit o hidle hi h
  | started hidle hi hlen h => exact .started hidle hi hlen h
  | committed f hf hop hk h => exact .committed f hf hop hk h
  | moved f hf hop hk h =>
    unfold readOpXfer at h
    split at h
    · exact .committed f hf hop (.inr ‹_›) h
    · exact .moved f hf hop hk h

/-- The steps of `RDMEM`: only the count of draws, the recorded faults and its own port can change (R198, R199). -/
theorem exec_rdmem_next {x : Half} {s t : State} (h : exec (.rdmem x) s = .next t) :
    s.busy .consumer = false ∧
      ((∃ r, t = ((s.accept .consumer).afterRead x.toNat).respond .consumer r) ∨
        ∃ r, t = ((s.accept .consumer).violated none (.rdmem x)).respond .consumer r) := by
  rw [exec, execRdmem] at h
  obtain ⟨hidle, -, h⟩ := accepting_next.mp h
  refine ⟨hidle, ?_⟩
  split at h
  · split at h
    · cases h; exact .inl ⟨_, rfl⟩
    · cases h
  · cases h; exact .inr ⟨_, rfl⟩

/-- Settles O34, from the four next states of a write operation. -/
theorem writeFrame : Obligations.WriteFrame := by
  intro s t i hi h
  have hf : ∀ f ∈ s.faults, f ∈ t.faults := (exec_recording i s t h).faults
  cases exec_write_next hi h with
  | uninit o hidle _ h | started hidle _ _ h =>
    subst h
    rw [State.port_producer] at hidle
    simpa [sameSetting, hidle] using hf
  | moved f hp _ hk h =>
    obtain ⟨-, v, -, rfl⟩ := storeXfer_next h
    rw [State.port_producer] at hp
    have hother : ∀ x, x ≠ f.cell → Memory.read? (Memory.write s.mem f.cell v) x = Memory.read? s.mem x :=
      fun x hx => Memory.read?_write_other _ _ hx
    simpa [sameSetting, hp, hk, Flight.cell] using hother
  | committed f hp _ hk h =>
    cases h
    rw [State.port_producer] at hp
    have hn : ¬f.k < f.plan.n := by
      obtain hk | rfl := hk
      · exact Nat.not_lt.mpr hk
      · cases hi
    simp +contextual [sameSetting, hp, hn]

/-- Settles O35, from the next states of a read operation and of `RDMEM`. -/
theorem readFrame : Obligations.ReadFrame := by
  intro s t i hi h
  have hf : ∀ f ∈ s.faults, f ∈ t.faults := (exec_recording i s t h).faults
  obtain hi | ⟨x, rfl⟩ := hi
  · cases exec_read_next hi h with
    | uninit o hidle _ h | started hidle _ _ h =>
      subst h
      rw [State.port_consumer] at hidle
      simpa [sameCells, sameSetting, hidle] using hf
    | moved f hp _ hk h =>
      obtain ⟨-, rfl⟩ := loadXfer_next h
      rw [State.port_consumer] at hp
      simp [sameCells, sameSetting, hp]
    | committed f hp _ hk h =>
      cases h
      rw [State.port_consumer] at hp
      have hearly : f.k < f.plan.n → i = .peek := fun hlt => hk.resolve_left (Nat.not_le.mpr hlt)
      simp +contextual [sameCells, sameSetting, hp, hearly]
  · obtain ⟨hidle, ⟨r, rfl⟩ | ⟨r, rfl⟩⟩ := exec_rdmem_next h
    · simp [sameCells, sameSetting]
    · simpa [sameCells, sameSetting] using hf

end Sys2Proof.Machine
end

section
/-! SUPPORT. What one step can do to the block: every step of every instruction is one of nine effects, up to faults,
responses, commands and free values. The invariants are then kept effect by effect. -/

namespace Sys2Proof.Machine

/-! ### States of the same block -/

/-- The two states have the same configuration, registers, cells, windows and operations in flight; commands, responses,
recorded faults, the schedule and the count of draws may differ. -/
structure SameBlock (s t : State) : Prop where
  cfg : t.cfg = s.cfg
  inited : t.inited = s.inited
  cap : t.cap = s.cap
  wc : t.wc = s.wc
  rc : t.rc = s.rc
  mem : t.mem = s.mem
  staleWc : t.staleWc = s.staleWc
  staleRc : t.staleRc = s.staleRc
  flight : ∀ p, (t.port p).flight = (s.port p).flight

namespace SameBlock

variable {s t u : State} {p : Port}

theorem refl (s : State) : SameBlock s s := ⟨rfl, rfl, rfl, rfl, rfl, rfl, rfl, rfl, fun _ => rfl⟩

theorem trans (h : SameBlock s t) (h' : SameBlock t u) : SameBlock s u :=
  ⟨h'.cfg.trans h.cfg, h'.inited.trans h.inited, h'.cap.trans h.cap, h'.wc.trans h.wc, h'.rc.trans h.rc,
    h'.mem.trans h.mem, h'.staleWc.trans h.staleWc, h'.staleRc.trans h.staleRc,
    fun p => (h'.flight p).trans (h.flight p)⟩

theorem accept (h : SameBlock s t) (p : Port) : SameBlock s (t.accept p) :=
  h.trans ⟨rfl, rfl, rfl, rfl, rfl, rfl, rfl, rfl, fun q => by rw [State.accept_port]; split_ifs with hq <;> simp [hq]⟩

theorem respond (h : SameBlock s t) (p : Port) (r : Response) : SameBlock s (t.respond p r) :=
  h.trans ⟨rfl, rfl, rfl, rfl, rfl, rfl, rfl, rfl, fun q => by rw [State.respond_port]; split_ifs with hq <;> simp [hq]⟩

theorem raiseIf (h : SameBlock s t) (o : Option RecordedFault) : SameBlock s (t.raiseIf o) :=
  h.trans (by constructor <;> simp)

theorem raiseAsserting (h : SameBlock s t) (f : RecordedFault) : SameBlock s (t.raiseAsserting f) :=
  h.trans (by constructor <;> simp)

theorem violated (h : SameBlock s t) (o : Option RecordedFault) (i : Instr) : SameBlock s (t.violated o i) :=
  h.trans (by constructor <;> simp)

theorem setTurn (h : SameBlock s t) (p : Port) : SameBlock s (t.setTurn p) := h.trans (by constructor <;> simp)

theorem afterRead (h : SameBlock s t) (c : Nat) : SameBlock s (t.afterRead c) := h.trans (by constructor <;> simp)

theorem bound (h : SameBlock s t) (b : Bool) (c : Idx) : SameBlock (s.bound b c) (t.bound b c) :=
  ⟨h.cfg, rfl, rfl, rfl, rfl, h.mem, rfl, rfl, h.flight⟩

/-- A sample depends on the block and on the count of draws. -/
theorem sampled (h : SameBlock s t) (hd : t.draws = s.draws) (p : Port) (now : Bool) :
    SameBlock (s.sampled p now) (t.sampled p now) := by
  have hview : t.mayBeStale p now = s.mayBeStale p now := by rw [State.mayBeStale, State.mayBeStale, h.cfg]
  refine ⟨h.cfg, h.inited, h.cap, h.wc, h.rc, h.mem, ?_, ?_, fun q => ?_⟩
  · simp only [State.sampled, State.viewChoice, hview, hd, h.staleWc]
  · simp only [State.sampled, State.viewChoice, hview, hd, h.staleRc]
  · simpa using h.flight q

theorem setFlight (h : SameBlock s t) (p : Port) (o : Option Flight) :
    SameBlock (s.setFlight p o) (t.setFlight p o) := by
  refine ⟨h.cfg, h.inited, h.cap, h.wc, h.rc, h.mem, h.staleWc, h.staleRc, fun q => ?_⟩
  simp only [State.setFlight_port]
  split_ifs
  · rfl
  · exact h.flight q

/-- Freeing the port and writing the cursors can be read in either order. -/
theorem commit (s : State) (p : Port) (plan : Plan) :
    SameBlock ((s.setFlight p none).commitCursors plan) ((s.commitCursors plan).setFlight p none) := by
  refine ⟨rfl, rfl, rfl, rfl, rfl, rfl, rfl, rfl, fun q => ?_⟩
  simp

end SameBlock

/-! ### Races -/

/-- A race that was recorded is still there. -/
theorem eq_none_of_raceFree {s t : State} {o : Option RecordedFault} (ho : ∀ f ∈ o, isRace f = true)
    (h : (s.raiseIf o).faults ⊆ t.faults) (hr : t.raceFree) : o = none := by
  cases o with
  | none => rfl
  | some f =>
    have hf : f ∈ t.faults := h (s.mem_raise_faults.mpr (.inl rfl))
    exact absurd (hr f hf) (by simp [ho f rfl])

theorem isRace_raceAgainst {q : Port} {bars : Instr → Bool} {i : Instr} {s : State} :
    ∀ f ∈ raceAgainst q bars i s, isRace f = true := by
  intro f hf
  unfold raceAgainst at hf
  split at hf
  · split at hf
    · split at hf <;> cases hf
      rfl
    · cases hf
  · cases hf

theorem isRace_lifecycleRace {i : Instr} {s : State} : ∀ f ∈ lifecycleRace i s, isRace f = true := by
  intro f hf
  unfold lifecycleRace at hf
  split at hf <;> cases hf
  rfl

/-- Without a race no operation that the check bars is in flight on the other port (R270). -/
theorem not_barred {q : Port} {bars : Instr → Bool} {i : Instr} {s : State} {f : Flight} (hi : s.inited = true)
    (h : raceAgainst q bars i s = none) (hf : (s.port q).flight = some f) : bars f.op = false := by
  simpa [raceAgainst, hi, hf] using h

theorem idle_of_busyWith {s : State} {p : Port} (h : s.busyWith p = []) : (s.port p).flight = none := by
  unfold State.busyWith at h
  split at h
  · cases h
  · assumption

/-- Without a race ports P and C are idle (R271). -/
theorem idle_of_lifecycleRace {i : Instr} {s : State} (h : lifecycleRace i s = none) :
    s.portP.flight = none ∧ s.portC.flight = none := by
  unfold lifecycleRace at h
  split at h
  · obtain ⟨hP, hC⟩ := List.append_eq_nil_iff.mp ‹_›
    exact ⟨idle_of_busyWith hP, idle_of_busyWith hC⟩
  · cases h

theorem raceAgainst_accept (p q : Port) (bars : Instr → Bool) (i : Instr) (s : State) :
    raceAgainst q bars i (s.accept p) = raceAgainst q bars i s := by
  have hf := ((SameBlock.refl s).accept p).flight q
  simp only [raceAgainst, State.accept_inited, hf]

/-! ### The effects of a step -/

/-- The operation in flight after its `SAMPLE` (R63). -/
def freshFlight (i : Instr) (plan : Plan) (data : List Byte) : Flight :=
  { op := i, plan := plan, data := data, k := 0, out := [] }

/-- The flight that the `SAMPLE` of a write operation leaves. -/
def writeFlight (i : Instr) (s : State) : Flight :=
  freshFlight i (writeOpPlan i (s.snapshot .producer (isForceWrite i))) (writeOpData i (s.presented .producer))

/-- The flight that the `SAMPLE` of a read operation leaves. -/
def readFlight (i : Instr) (s : State) : Flight :=
  freshFlight i (readPlan (readOpCount i (s.snapshot .consumer false)) (s.snapshot .consumer false))
    (s.presented .consumer)

/-- Everything a step of instruction `i` from `s` to `t` can do to the block. -/
inductive Effect (i : Instr) (s t : State) : Prop
  | kept (h : SameBlock s t)
  | bound (b : Bool) (c : Idx) (hb : Binds s i b c)
      (hidle : t.raceFree → s.portP.flight = none ∧ s.portC.flight = none) (h : SameBlock (s.bound b c) t)
  | looked (hi : s.inited = true) (h : SameBlock (s.sampled s.turn true) t)
  | startedWrite (hw : writesCells i = true) (hi : s.inited = true) (hidle : s.portP.flight = none)
      (hlen : (s.presented .producer).length = payloadLen i)
      (hrace : t.raceFree → isForceWrite i = true → forceWriteRace i s = none)
      (h : SameBlock ((s.sampled .producer (isForceWrite i)).setFlight .producer (some (writeFlight i s))) t)
  | startedRead (hr : movesReadCursor i = true) (hi : s.inited = true) (hidle : s.portC.flight = none)
      (hrace : t.raceFree → readRace i s = none)
      (h : SameBlock ((s.sampled .consumer false).setFlight .consumer (some (readFlight i s))) t)
  | stored (f : Flight) (v : Byte) (hw : writesCells i = true) (hf : s.portP.flight = some f) (hk : f.k < f.plan.n)
      (hcell : f.cell < s.cfg.storageBytes) (hv : f.data[f.plan.skip + f.k]? = some v)
      (h : SameBlock ((s.storeByte f.cell v).setFlight .producer (some { f with k := f.k + 1 })) t)
  | loaded (f : Flight) (hf : s.portC.flight = some f) (hk : f.k < f.plan.n)
      (h : SameBlock (s.setFlight .consumer (some { f with k := f.k + 1, out := f.out ++ [s.byteAt f.cell] })) t)
  | committedWrite (f : Flight) (hw : writesCells i = true) (hf : s.portP.flight = some f) (hop : f.op = i)
      (hk : f.plan.n ≤ f.k) (h : SameBlock ((s.setFlight .producer none).commitCursors f.plan) t)
  | committedRead (f : Flight) (hr : movesReadCursor i = true) (hf : s.portC.flight = some f)
      (h : SameBlock ((s.setFlight .consumer none).commitCursors f.plan) t)

theorem lifecycle_effect {i : Instr} {s t : State} (hi : isLifecycle i = true) (h : exec i s = .next t) :
    Effect i s t := by
  have hu : SameBlock s ((s.accept .host).raiseIf (lifecycleRace i (s.accept .host))) :=
    ((SameBlock.refl s).accept _).raiseIf _
  cases exec_lifecycle_next hi h with
  | failed r => exact .kept ((hu.violated _ i).respond _ r)
  | nothing r => exact .kept (hu.respond _ r)
  | bound r b c hb =>
    refine .bound b c hb (fun hr => ?_) ((hu.bound b c).respond _ r)
    exact idle_of_lifecycleRace (eq_none_of_raceFree isRace_lifecycleRace (List.Subset.refl _) hr)

theorem query_effect {i : Instr} {s t : State} (hi : isQuery i = true) (h : exec i s = .next t) : Effect i s t := by
  rw [exec_query hi] at h
  obtain ⟨-, -, rfl⟩ := query_next h
  have ha := (SameBlock.refl s).accept s.turn
  split
  · exact .looked ‹_› ((ha.sampled rfl _ _).respond _ _)
  · exact .kept (ha.respond _ _)

theorem write_effect {i : Instr} {s t : State} (hw : writesCells i = true) (h : exec i s = .next t) : Effect i s t := by
  have ha := (SameBlock.refl s).accept .producer
  cases exec_write_next hw h with
  | uninit o _ _ h => exact h ▸ .kept (((ha.raiseIf _).violated o i).respond _ _)
  | started hidle hi hlen h =>
    subst h
    refine .startedWrite hw hi hidle hlen (fun hr hforce => ?_) (((ha.raiseIf _).sampled (by simp) _ _).setFlight _ _)
    have hrace : writeOpRace i i (s.accept .producer) = forceWriteRace i s := by
      rw [writeOpRace, if_pos hforce]
      exact raceAgainst_accept _ _ _ _ _
    rw [← hrace]
    exact eq_none_of_raceFree (hrace ▸ isRace_raceAgainst) (List.Subset.refl _) hr
  | moved f hf hop hk h =>
    obtain ⟨hcell, v, hv, h⟩ := storeXfer_next h
    exact .stored f v hw hf hk hcell hv (h ▸ .refl _)
  | committed f hf hop hk h =>
    cases h
    refine .committedWrite f hw hf hop ?_ ((SameBlock.commit s _ _).respond _ _)
    obtain hk | rfl := hk
    · exact hk
    · cases hw

theorem read_effect {i : Instr} {s t : State} (hr : movesReadCursor i = true) (h : exec i s = .next t) :
    Effect i s t := by
  have ha := (SameBlock.refl s).accept .consumer
  cases exec_read_next hr h with
  | uninit o _ _ h => exact h ▸ .kept (((ha.raiseIf _).violated o i).respond _ _)
  | started hidle hi _ h =>
    subst h
    refine .startedRead hr hi hidle (fun hfree => ?_) (((ha.raiseIf _).sampled (by simp) _ _).setFlight _ _)
    have hrace : readRace i (s.accept .consumer) = readRace i s := raceAgainst_accept _ _ _ _ _
    rw [← hrace]
    exact eq_none_of_raceFree isRace_raceAgainst (List.Subset.refl _) hfree
  | moved f hf hop hk h =>
    obtain ⟨-, h⟩ := loadXfer_next h
    exact .loaded f hf hk (h ▸ ((SameBlock.refl s).afterRead f.cell).setFlight _ _)
  | committed f hf hop hk h =>
    cases h
    exact .committedRead f hr hf ((SameBlock.commit s _ _).respond _ _)

theorem rdmem_effect {x : Half} {s t : State} (h : exec (.rdmem x) s = .next t) : Effect (.rdmem x) s t := by
  have ha := (SameBlock.refl s).accept .consumer
  obtain ⟨-, ⟨r, rfl⟩ | ⟨r, rfl⟩⟩ := exec_rdmem_next h
  · exact .kept ((ha.afterRead _).respond _ r)
  · exact .kept ((ha.violated _ _).respond _ r)

theorem exec_effect {i : Instr} {s t : State} (h : exec i s = .next t) : Effect i s t := by
  cases i with
  | init | create | destroy | reset => exact lifecycle_effect rfl h
  | status | dataLen | freeLen => exact query_effect rfl h
  | put | putForce | putchar | putcharForce => exact write_effect rfl h
  | get | getchar | peek => exact read_effect rfl h
  | rdmem x => exact rdmem_effect h

/-- Everything a step of the machine can do (R67, R260, R261): a power-on reset, nothing to the block, or a step of one
instruction. -/
inductive StepCase (s t : State) : Prop
  | powerOn (rest : List Event) (hs : s.sched = .powerOn :: rest) (h : t = ({ s with sched := rest }).powerOn)
  | kept (h : SameBlock s t) (hf : s.faults ⊆ t.faults)
  | ran (u : State) (i : Instr) (hu : SameBlock s u) (hf : u.faults = s.faults) (h : exec i u = .next t)

theorem illegalStep_same {p : Port} {c : Command} {s t : State} (h : illegalStep p c s = .next t) : SameBlock s t := by
  unfold illegalStep at h
  split at h
  · cases h
  · cases h
    exact (((SameBlock.refl s).accept p).raiseAsserting _).respond p _

theorem fetch_case {p : Port} {s u t : State} (hu : SameBlock s u) (hf : u.faults = s.faults)
    (h : (fetch p u).outcome = .next t) : StepCase s t := by
  obtain ⟨f, -, hsel⟩ | ⟨-, -, hsel⟩ | ⟨c, -, -, -, -, ⟨-, hsel⟩ | ⟨-, i, -, hsel⟩ | ⟨-, -, -, hsel⟩⟩ := fetch_cases p u
  all_goals rw [hsel] at h
  · exact .ran _ f.op (hu.setTurn p) hf h
  · cases h; exact .kept hu (hf ▸ List.Subset.refl _)
  · cases h
  · exact .ran _ i (hu.setTurn p) hf h
  · exact .kept ((hu.setTurn p).trans (illegalStep_same h)) (hf ▸ (illegalStep_recording p c _ t h).faults)

theorem step_case {s t : State} (h : step s = .next t) : StepCase s t := by
  rw [step_eq_outcome] at h
  obtain ⟨rest, hs, hsel⟩ | ⟨p, rest, -, hsel⟩ | ⟨-, -, hsel⟩ | ⟨p, -, -, hsel⟩ := select_cases s
  all_goals rw [hsel] at h
  · cases h; exact .powerOn rest hs rfl
  · have hsched : SameBlock s { s with sched := rest } :=
      ⟨rfl, rfl, rfl, rfl, rfl, rfl, rfl, rfl, fun q => by cases q <;> rfl⟩
    exact fetch_case hsched rfl h
  · cases h; exact .kept (.refl s) (List.Subset.refl _)
  · have hdraw : SameBlock s { s with draws := s.draws + 1 } :=
      ⟨rfl, rfl, rfl, rfl, rfl, rfl, rfl, rfl, fun q => by cases q <;> rfl⟩
    exact fetch_case hdraw rfl h

/-- Settles O53. -/
theorem powerOnDiscardsOperationsInFlight : Obligations.PowerOnDiscardsOperationsInFlight := by
  intro s rest hs
  have hstep : step s = .next ({ s with sched := rest }).powerOn := by simp [step, select, hs]
  exact ⟨_, hstep, rfl, rfl, rfl, rfl, fun _ => rfl, rfl, rfl, fun p => by cases p <;> exact ⟨rfl, rfl⟩⟩

end Sys2Proof.Machine
end

section
/-! SUPPORT. The register invariants of R22, R34, R36, R66 to R69 and R71 are kept by every effect of a step. -/

namespace Sys2Proof.Machine

/-! ### Windows of past values (R71) -/

/-- The past values of a cursor and its present one, by a length that never falls. -/
def Window (len : Cursor → Nat) (past : List Cursor) (now : Cursor) : Prop :=
  (past ++ [now]).Pairwise fun a b => len a ≤ len b

section Windows

variable {len len' : Cursor → Nat} {past past' : List Cursor} {now new c : Cursor}

theorem window_nil : Window len [] now := List.pairwise_singleton _ _

theorem Window.suffix (h : Window len past now) (hs : past' <:+ past) : Window len past' now :=
  List.Pairwise.sublist (hs.sublist.append_right [now]) h

/-- The order stays under any other length that is ordered alike. -/
theorem Window.imp (h : Window len past now)
    (hl : ∀ a ∈ now :: past, ∀ b ∈ now :: past, len a ≤ len b → len' a ≤ len' b) : Window len' past now :=
  List.Pairwise.imp_of_mem (fun ha hb => hl _ (by simpa [or_comm] using ha) _ (by simpa [or_comm] using hb)) h

theorem Window.le_now (h : Window len past now) (hc : c ∈ past) : len c ≤ len now :=
  (List.pairwise_append.mp h).2.2 c hc now (by simp)

/-- A commit that does not lower the length keeps the order. -/
theorem Window.remember (h : Window len past now) (hle : len now ≤ len new) (view : CursorView) :
    Window len (remember view past now new) new := by
  have happ : ∀ p : List Cursor, p.Pairwise (fun a b => len a ≤ len b) → (∀ c ∈ p, len c ≤ len now) →
      Window len p new := fun p hp hn =>
    List.pairwise_append.mpr ⟨hp, List.pairwise_singleton _ _, fun c hc d hd => by
      rw [List.mem_singleton.mp hd]
      exact (hn c hc).trans hle⟩
  cases view with
  | fresh => exact happ past (List.pairwise_append.mp h).1 fun c hc => h.le_now hc
  | monotoneStale =>
    simp only [Machine.remember]
    split
    · subst_vars; exact h
    · refine happ _ h fun c hc => ?_
      obtain hc | hc := List.mem_append.mp hc
      · exact h.le_now hc
      · rw [List.mem_singleton.mp hc]

theorem remember_self (view : CursorView) (past : List Cursor) (now : Cursor) : remember view past now now = past := by
  cases view <;> simp [remember]

theorem mem_remember {view : CursorView} (h : c ∈ remember view past now new) : c ∈ now :: past := by
  unfold remember at h
  split at h
  · exact .tail _ h
  · split at h
    · exact .tail _ h
    · simpa [or_comm] using h

/-- A cursor seen has the least length of all that stay visible after it. -/
theorem Window.seen_le {k : Nat} (h : Window len past now) (hk : k ≤ past.length) (hc : c ∈ now :: past.drop k) :
    len (seenCursor past now k) ≤ len c := by
  have hseen : (past ++ [now]).drop k = seenCursor past now k :: (past ++ [now]).drop (k + 1) := by
    rw [List.drop_eq_getElem_cons (by simp; omega)]
    congr 1
    rw [List.getElem_append, seenCursor, List.getD_eq_getElem?_getD]
    split <;> simp_all
  have hp := h.sublist (List.drop_sublist k _)
  rw [hseen] at hp
  have hmem : c ∈ (past ++ [now]).drop k := by
    rw [List.drop_append_of_le_length hk]
    simpa [or_comm] using hc
  rw [hseen] at hmem
  obtain rfl | hmem := List.mem_cons.mp hmem
  · exact le_rfl
  · exact List.rel_of_pairwise_cons hp hmem

theorem seenCursor_mem (past : List Cursor) (now : Cursor) (k : Nat) : seenCursor past now k ∈ now :: past := by
  rw [seenCursor, List.getD_eq_getElem?_getD]
  cases h : past[k]? with
  | none => simp
  | some c => simpa using .inr (List.mem_of_getElem? h)

end Windows

/-! ### What a sample sees (R71) -/

/-- A sample of port P sees some value of `rc` still visible, and leaves visible that one and the later ones. -/
theorem sample_sees_rc (s : State) (now : Bool) : ∃ k ≤ s.staleRc.length,
    (s.snapshot .producer now).rc = seenCursor s.staleRc s.rc k ∧
      (s.sampled .producer now).staleRc = s.staleRc.drop k := by
  cases hv : s.mayBeStale .producer now with
  | true =>
    exact ⟨s.viewChoice s.staleRc.length, Nat.le_of_lt_succ (Nat.mod_lt _ (Nat.succ_pos _)),
      by simp [State.snapshot, hv], by simp [State.sampled, hv]⟩
  | false => exact ⟨_, le_rfl, by simp [State.snapshot, hv, seenCursor], by simp [State.sampled, hv]⟩

/-- A sample of port C sees some value of `wc` still visible, and leaves visible that one and the later ones. -/
theorem sample_sees_wc (s : State) (now : Bool) : ∃ k ≤ s.staleWc.length,
    (s.snapshot .consumer now).wc = seenCursor s.staleWc s.wc k ∧
      (s.sampled .consumer now).staleWc = s.staleWc.drop k := by
  cases hv : s.mayBeStale .consumer now with
  | true =>
    exact ⟨s.viewChoice s.staleWc.length, Nat.le_of_lt_succ (Nat.mod_lt _ (Nat.succ_pos _)),
      by simp [State.snapshot, hv], by simp [State.sampled, hv]⟩
  | false => exact ⟨_, le_rfl, by simp [State.snapshot, hv, seenCursor], by simp [State.sampled, hv]⟩

theorem sampled_staleRc_suffix (s : State) (p : Port) (now : Bool) : (s.sampled p now).staleRc <:+ s.staleRc := by
  simp only [State.sampled]
  split_ifs <;> simp [List.drop_suffix]

theorem sampled_staleWc_suffix (s : State) (p : Port) (now : Bool) : (s.sampled p now).staleWc <:+ s.staleWc := by
  simp only [State.sampled]
  split_ifs <;> simp [List.drop_suffix]

/-- A sample of port P shows no more free cells than there are for any read cursor that stays visible. -/
theorem freeLen_snapshot_le {s : State} (h : Window (fun r => freeLen s.wc r s.cap.toNat) s.staleRc s.rc) (now : Bool)
    {r : Cursor} (hr : r ∈ s.rc :: (s.sampled .producer now).staleRc) :
    freeLen s.wc (s.snapshot .producer now).rc s.cap.toNat ≤ freeLen s.wc r s.cap.toNat := by
  obtain ⟨k, hk, hseen, hpast⟩ := sample_sees_rc s now
  rw [hpast] at hr
  rw [hseen]
  exact h.seen_le hk hr

/-- A sample of port C shows no more bytes than are buffered for any write cursor that stays visible. -/
theorem dataLen_snapshot_le {s : State} (h : Window (fun w => dataLen w s.rc s.cap.toNat) s.staleWc s.wc) (now : Bool)
    {w : Cursor} (hw : w ∈ s.wc :: (s.sampled .consumer now).staleWc) :
    dataLen (s.snapshot .consumer now).wc s.rc s.cap.toNat ≤ dataLen w s.rc s.cap.toNat := by
  obtain ⟨k, hk, hseen, hpast⟩ := sample_sees_wc s now
  rw [hpast] at hw
  rw [hseen]
  exact h.seen_le hk hw

/-! ### The registers after a `COMMIT` (R65, R71, R176) -/

theorem commitCursors_of_write {s : State} {plan : Plan} {w : Cursor} (hw : plan.newWc = some w)
    (hr : plan.newRc = none) (ho : plan.ovw = false) :
    s.commitCursors plan = { s with wc := w, staleWc := remember s.cfg.cursorView s.staleWc s.wc w } := by
  simp [State.commitCursors, hw, hr, ho, remember_self]

theorem commitCursors_of_overwrite {s : State} {plan : Plan} {w r : Cursor} (hw : plan.newWc = some w)
    (hr : plan.newRc = some r) (ho : plan.ovw = true) :
    s.commitCursors plan = { s with wc := w, rc := r, staleWc := [], staleRc := [] } := by
  simp [State.commitCursors, hw, hr, ho]

theorem commitCursors_of_read {s : State} {plan : Plan} {r : Cursor} (hw : plan.newWc = none)
    (hr : plan.newRc = some r) (ho : plan.ovw = false) :
    s.commitCursors plan = { s with rc := r, staleRc := remember s.cfg.cursorView s.staleRc s.rc r } := by
  simp [State.commitCursors, hw, hr, ho, remember_self]

/-! ### The invariant of an initialised block -/

/-- A capacity that `INIT` can set (R22). -/
def LegalCap (c : Config) (cap : Nat) : Prop :=
  cap % 4 = 0 ∧ 4 ≤ cap ∧ cap ≤ c.storageBytes ∧ cap + 4 ≤ 2 ^ c.idxW

/-- `State.quietOk` of an initialised block, with the windows of both ports in one form. -/
structure Running (s : State) : Prop where
  inited : s.inited = true
  legal : LegalCap s.cfg s.cap.toNat
  seenRc : ∀ r ∈ s.rc :: s.staleRc, InLapOrder s.wc r s.cap.toNat
  seenWc : ∀ w ∈ s.wc :: s.staleWc, InLapOrder w s.rc s.cap.toNat
  windowRc : Window (fun r => freeLen s.wc r s.cap.toNat) s.staleRc s.rc
  windowWc : Window (fun w => dataLen w s.rc s.cap.toNat) s.staleWc s.wc
  flightP : ∀ f, s.portP.flight = some f → s.flightPOk f
  flightC : ∀ f, s.portC.flight = some f → s.flightCOk f
  exclusive : ∀ f, s.portP.flight = some f → isForceWrite f.op = true → s.portC.flight = none
  hostIdle : s.portH.flight = none

/-- `State.quietOk` of an UNINIT block. -/
structure Unbound (s : State) : Prop where
  inited : s.inited = false
  regs : s.uninitOk
  hostIdle : s.portH.flight = none

theorem Running.order {s : State} (h : Running s) : InLapOrder s.wc s.rc s.cap.toNat := h.seenRc _ (.head _)

theorem Running.quietOk {s : State} (h : Running s) : s.quietOk := by
  obtain ⟨hm, h4, hst, hidx⟩ := h.legal
  have ho := h.order
  refine ⟨fun _ => ⟨hm, h4, hst, hidx, ho.wIdx, ho.rIdx, ho.order⟩, fun hi => by simp [h.inited] at hi,
    ⟨fun r hr => ?_, h.windowRc⟩, ⟨fun w hw => ?_, h.windowWc⟩, ?_, ?_, ?_, h.hostIdle⟩
  · exact ⟨(h.seenRc r (.tail _ hr)).rIdx, (h.seenRc r (.tail _ hr)).order⟩
  · exact ⟨(h.seenWc w (.tail _ hw)).wIdx, (h.seenWc w (.tail _ hw)).order⟩
  · simpa only [Option.mem_toList] using h.flightP
  · simpa only [Option.mem_toList] using h.flightC
  · exact fun f hf => h.exclusive f (Option.mem_toList.mp hf)

theorem Unbound.quietOk {s : State} (h : Unbound s) : s.quietOk := by
  obtain ⟨-, -, -, hw, hr, hP, hC⟩ := h.regs
  refine ⟨fun hi => by simp [h.inited] at hi, fun _ => h.regs, ?_, ?_, ?_, ?_, ?_, h.hostIdle⟩
  · exact ⟨by simp [hr], by simp [hr]⟩
  · exact ⟨by simp [hw], by simp [hw]⟩
  · simp [hP]
  · simp [hC]
  · simp [State.exclusiveOk, hP]

theorem running_of_quietOk {s : State} (h : s.quietOk) (hi : s.inited = true) : Running s := by
  obtain ⟨hinit, -, ⟨hrc, hwinR⟩, ⟨hwc, hwinW⟩, hP, hC, hx, hH⟩ := h
  obtain ⟨hm, h4, hst, hidx, hwlt, hrlt, ho⟩ := hinit hi
  have hsmall : s.cap.toNat < 32768 := s.cap.isLt
  refine ⟨hi, ⟨hm, h4, hst, hidx⟩, ?_, ?_, hwinR, hwinW, ?_, ?_, ?_, hH⟩
  · exact List.forall_mem_cons.mpr ⟨⟨hsmall, hwlt, hrlt, ho⟩, fun r hr => ⟨hsmall, hwlt, (hrc r hr).1, (hrc r hr).2⟩⟩
  · exact List.forall_mem_cons.mpr ⟨⟨hsmall, hwlt, hrlt, ho⟩, fun w hw => ⟨hsmall, (hwc w hw).1, hrlt, (hwc w hw).2⟩⟩
  · simpa only [Option.mem_toList] using hP
  · simpa only [Option.mem_toList] using hC
  · exact fun f hf => hx f (Option.mem_toList.mpr hf)

theorem SameBlock.quietOk {s t : State} (h : SameBlock s t) (hs : s.quietOk) : t.quietOk := by
  have hP : t.portP.flight = s.portP.flight := h.flight .producer
  have hC : t.portC.flight = s.portC.flight := h.flight .consumer
  have hH : t.portH.flight = s.portH.flight := h.flight .host
  simpa only [State.quietOk, State.initedOk, State.uninitOk, State.staleRcOk, State.staleWcOk, State.flightPOk,
    State.flightCOk, State.exclusiveOk, h.cfg, h.inited, h.cap, h.wc, h.rc, h.staleWc, h.staleRc, hP, hC, hH] using hs

/-! ### What an operation in flight relies on -/

/-- A flight on P stays sound while both cursors stay and its window only closes (R68). -/
theorem flightPOk_of_window {s t : State} {f : Flight} (h : s.flightPOk f) (hi : t.inited = s.inited)
    (hcap : t.cap = s.cap) (hwc : t.wc = s.wc) (hrc : t.rc = s.rc) (hst : t.staleRc ⊆ s.staleRc) : t.flightPOk f := by
  obtain ⟨hinit, hw, hbase, hsnap, hnew, hn, hk, hlen, hfit, hovw⟩ := h
  simp only [State.flightPOk, hi, hcap, hwc, hrc]
  refine ⟨hinit, hw, hbase, hsnap, hnew, hn, hk, hlen, fun ho => ⟨(hfit ho).1, fun r hr => ?_⟩, hovw⟩
  exact (hfit ho).2 r (List.cons_subset_cons _ hst hr)

/-- A flight on C stays sound while both cursors stay and its window only closes (R68). -/
theorem flightCOk_of_window {s t : State} {f : Flight} (h : s.flightCOk f) (hi : t.inited = s.inited)
    (hcap : t.cap = s.cap) (hwc : t.wc = s.wc) (hrc : t.rc = s.rc) (hst : t.staleWc ⊆ s.staleWc) : t.flightCOk f := by
  obtain ⟨hinit, hr, hbase, hsnap, hnewW, hnew, hovw, hk, hfit⟩ := h
  simp only [State.flightCOk, hi, hcap, hwc, hrc]
  exact ⟨hinit, hr, hbase, hsnap, hnewW, hnew, hovw, hk, fun w hw => hfit w (List.cons_subset_cons _ hst hw)⟩

/-- A flight on P stays sound when one more byte of it is moved. -/
theorem flightPOk_next {s : State} {f : Flight} (h : s.flightPOk f) (hk : f.k < f.plan.n) :
    s.flightPOk { f with k := f.k + 1 } := by
  obtain ⟨hinit, hw, hbase, hsnap, hnew, hn, -, hrest⟩ := h
  exact ⟨hinit, hw, hbase, hsnap, hnew, hn, hk, hrest⟩

/-- A flight on C stays sound when one more byte of it is moved. -/
theorem flightCOk_next {s : State} {f : Flight} (h : s.flightCOk f) (hk : f.k < f.plan.n) (out : List Byte) :
    s.flightCOk { f with k := f.k + 1, out := out } := by
  obtain ⟨hinit, hr, hbase, hsnap, hnewW, hnew, hovw, -, hfit⟩ := h
  exact ⟨hinit, hr, hbase, hsnap, hnewW, hnew, hovw, hk, hfit⟩

namespace Running

variable {s : State} {f : Flight}

/-! ### The effects on an initialised block -/

theorem sampled (h : Running s) (p : Port) (now : Bool) : Running (s.sampled p now) where
  inited := h.inited
  legal := h.legal
  seenRc r hr := h.seenRc r (List.cons_subset_cons _ (sampled_staleRc_suffix s p now).subset hr)
  seenWc w hw := h.seenWc w (List.cons_subset_cons _ (sampled_staleWc_suffix s p now).subset hw)
  windowRc := h.windowRc.suffix (sampled_staleRc_suffix s p now)
  windowWc := h.windowWc.suffix (sampled_staleWc_suffix s p now)
  flightP f hf := flightPOk_of_window (h.flightP f hf) rfl rfl rfl rfl (sampled_staleRc_suffix s p now).subset
  flightC f hf := flightCOk_of_window (h.flightC f hf) rfl rfl rfl rfl (sampled_staleWc_suffix s p now).subset
  exclusive := h.exclusive
  hostIdle := h.hostIdle

theorem storeByte (h : Running s) (c : Nat) (v : Byte) : Running (s.storeByte c v) :=
  ⟨h.inited, h.legal, h.seenRc, h.seenWc, h.windowRc, h.windowWc, h.flightP, h.flightC, h.exclusive, h.hostIdle⟩

theorem setFlightP (h : Running s) {o : Option Flight} (ho : ∀ f, o = some f → s.flightPOk f)
    (hx : ∀ f, o = some f → isForceWrite f.op = true → s.portC.flight = none) : Running (s.setFlight .producer o) :=
  ⟨h.inited, h.legal, h.seenRc, h.seenWc, h.windowRc, h.windowWc, ho, h.flightC, hx, h.hostIdle⟩

theorem setFlightC (h : Running s) {o : Option Flight} (ho : ∀ f, o = some f → s.flightCOk f)
    (hx : ∀ f, s.portP.flight = some f → isForceWrite f.op = true → o = none) : Running (s.setFlight .consumer o) :=
  ⟨h.inited, h.legal, h.seenRc, h.seenWc, h.windowRc, h.windowWc, h.flightP, ho, hx, h.hostIdle⟩

end Running

end Sys2Proof.Machine
end

section
/-! SUPPORT. Samples, commits and lifecycle operations keep the register invariants; so does every step (R22 to R79). -/

namespace Sys2Proof.Machine

/-! ### Plans (R166, R172, R185, R206, R210, R214) -/

/-- What the plan of a write operation promises about the two cursors it saw. -/
structure WritePlanFits (i : Instr) (v : Snapshot) (plan : Plan) (data : List Byte) : Prop where
  snap : plan.snap = v
  base : plan.base = v.wc
  newWc : plan.newWc = some (adv v.wc plan.n v.cap.toNat)
  count : plan.n ≤ v.cap.toNat
  bytes : plan.skip + plan.n ≤ data.length
  fits : plan.ovw = false → plan.newRc = none ∧ plan.n ≤ freeLen v.wc v.rc v.cap.toNat
  overwrites : plan.ovw = true → isForceWrite i = true ∧
    plan.newRc = some (forcedRead (adv v.wc plan.n v.cap.toNat)) ∧ freeLen v.wc v.rc v.cap.toNat < plan.n

/-- A buffer that is not full has room for a byte, and a full one has none (R32). -/
theorem InLapOrder.freeLen_of_status {w r : Cursor} {cap : Nat} (h : InLapOrder w r cap) :
    (status w r = .full → freeLen w r cap = 0) ∧ (status w r ≠ .full → 1 ≤ freeLen w r cap) := by
  have := h.dataLen_add_freeLen
  rw [ne_eq, h.status_full_iff]
  omega

theorem forcePlan_fits {i : Instr} {v : Snapshot} {n skip : Nat} {ovw : Bool} {data : List Byte}
    (hn : n ≤ v.cap.toNat) (hbytes : skip + n ≤ data.length)
    (hfit : ovw = false → n ≤ freeLen v.wc v.rc v.cap.toNat)
    (hover : ovw = true → isForceWrite i = true ∧ freeLen v.wc v.rc v.cap.toNat < n) :
    WritePlanFits i v (forcePlan n skip ovw v) data := by
  refine ⟨rfl, rfl, rfl, hn, hbytes, fun ho => ⟨?_, hfit ho⟩, fun ho => ⟨(hover ho).1, ?_, (hover ho).2⟩⟩
  all_goals
    obtain rfl : ovw = _ := ho
    rfl

theorem writePlan_eq_forcePlan (n : Nat) (v : Snapshot) : writePlan n v = forcePlan n 0 false v := rfl

theorem writeOpPlan_fits {i : Instr} {v : Snapshot} {d : List Byte} (hw : writesCells i = true)
    (h : InLapOrder v.wc v.rc v.cap.toNat) (hd : d.length = payloadLen i) :
    WritePlanFits i v (writeOpPlan i v) (writeOpData i d) := by
  have hfree := freeLen_le v.wc v.rc v.cap.toNat
  obtain ⟨hfull, hroom⟩ := h.freeLen_of_status
  have hpos : 0 < v.cap.toNat := Nat.zero_lt_of_lt h.wIdx
  cases i with
  | put len =>
    have hn : putCount len v ≤ len.toNat ∧ putCount len v ≤ freeLen v.wc v.rc v.cap.toNat :=
      ⟨Nat.min_le_left _ _, Nat.min_le_right _ _⟩
    simp only [payloadLen] at hd
    simp only [writeOpPlan, putPlan, writePlan_eq_forcePlan, writeOpData]
    exact forcePlan_fits (by omega) (by omega) (fun _ => hn.2) (by simp)
  | putForce len =>
    have hn : putForceCount len v ≤ len.toNat ∧ putForceCount len v ≤ v.cap.toNat :=
      ⟨Nat.min_le_left _ _, Nat.min_le_right _ _⟩
    simp only [payloadLen] at hd
    simp only [writeOpPlan, putForcePlan, writeOpData]
    refine forcePlan_fits hn.2 (by omega) (fun ho => ?_) (fun ho => ⟨rfl, of_decide_eq_true ho⟩)
    exact Nat.le_of_not_lt (of_decide_eq_false ho)
  | putchar b =>
    have hn : putcharCount v ≤ 1 ∧ putcharCount v ≤ freeLen v.wc v.rc v.cap.toNat := by
      unfold putcharCount
      split
      · exact ⟨Nat.zero_le _, Nat.zero_le _⟩
      · exact ⟨le_rfl, hroom ‹_›⟩
    simp only [writeOpPlan, putcharPlan, writePlan_eq_forcePlan, writeOpData]
    exact forcePlan_fits (by omega) (by simpa using hn.1) (fun _ => hn.2) (by simp)
  | putcharForce b =>
    simp only [writeOpPlan, putcharForcePlan, writeOpData]
    refine forcePlan_fits hpos le_rfl (fun ho => hroom (of_decide_eq_false ho)) (fun ho => ⟨rfl, ?_⟩)
    exact Nat.lt_of_le_of_lt (hfull (of_decide_eq_true ho)).le Nat.one_pos
  | _ => cases hw

theorem getcharCount_le {v : Snapshot} (h : InLapOrder v.wc v.rc v.cap.toNat) :
    getcharCount v ≤ dataLen v.wc v.rc v.cap.toNat := by
  simp only [getcharCount, h.status_empty_iff]
  split <;> omega

/-- No read takes more than the buffered bytes it saw (R59, R187, R193, R210). -/
theorem readOpCount_le (i : Instr) {v : Snapshot} (h : InLapOrder v.wc v.rc v.cap.toNat) :
    readOpCount i v ≤ dataLen v.wc v.rc v.cap.toNat := by
  have hget (len : Half) : getCount len v ≤ dataLen v.wc v.rc v.cap.toNat := Nat.min_le_right _ _
  have hpeek : peekCount v ≤ dataLen v.wc v.rc v.cap.toNat := Nat.min_le_left _ _
  cases i with
  | get len => exact hget len
  | getchar => exact getcharCount_le h
  | _ => exact hpeek

namespace Running

variable {s : State} {f : Flight} {i : Instr}

/-! ### Samples -/

theorem snapshotP_order (h : Running s) (now : Bool) :
    InLapOrder s.wc (s.snapshot .producer now).rc s.cap.toNat := by
  obtain ⟨k, -, hseen, -⟩ := sample_sees_rc s now
  exact h.seenRc _ (hseen ▸ seenCursor_mem _ _ _)

theorem snapshotC_order (h : Running s) (now : Bool) :
    InLapOrder (s.snapshot .consumer now).wc s.rc s.cap.toNat := by
  obtain ⟨k, -, hseen, -⟩ := sample_sees_wc s now
  exact h.seenWc _ (hseen ▸ seenCursor_mem _ _ _)

/-- A write that samples writes at most the cells that are free, whichever read cursor of its window it saw
(R69, R71). -/
theorem writeFlight_ok (h : Running s) (hw : writesCells i = true)
    (hlen : (s.presented .producer).length = payloadLen i) :
    (s.sampled .producer (isForceWrite i)).flightPOk (writeFlight i s) := by
  have hp := writeOpPlan_fits (v := s.snapshot .producer (isForceWrite i)) hw
    (by simpa using h.snapshotP_order (isForceWrite i)) hlen
  obtain ⟨hsnap, hbase, hnew, hn, hbytes, hfit, hovw⟩ := hp
  simp only [State.snapshot_cap, State.snapshot_producer_wc] at hbase hnew hn hfit hovw
  refine ⟨h.inited, hw, hbase, by simp [writeFlight, freshFlight, hsnap], hnew, hn, Nat.zero_le _, hbytes,
    fun ho => ⟨(hfit ho).1, fun r hr => (hfit ho).2.trans (freeLen_snapshot_le h.windowRc _ hr)⟩, fun ho => ?_⟩
  obtain ⟨hforce, hnewRc, hover⟩ := hovw ho
  rw [hforce, State.snapshot_now] at hover
  exact ⟨hforce, hnewRc, by simpa [writeFlight, freshFlight, hforce, State.snapshot_now] using hover⟩

/-- A read that samples reads at most the bytes buffered, whichever write cursor of its window it saw (R69, R71). -/
theorem readFlight_ok (h : Running s) (hr : movesReadCursor i = true) :
    (s.sampled .consumer false).flightCOk (readFlight i s) := by
  have hn := readOpCount_le i (v := s.snapshot .consumer false) (by simpa using h.snapshotC_order false)
  simp only [State.snapshot_cap, State.snapshot_consumer_rc] at hn
  refine ⟨h.inited, hr, ?_, ?_, rfl, ?_, rfl, Nat.zero_le _,
    fun w hw => hn.trans (dataLen_snapshot_le h.windowWc false hw)⟩
  all_goals simp [readFlight, freshFlight, readPlan]

theorem startWrite (h : Running s) (hw : writesCells i = true)
    (hlen : (s.presented .producer).length = payloadLen i)
    (hrace : isForceWrite i = true → forceWriteRace i s = none) :
    Running ((s.sampled .producer (isForceWrite i)).setFlight .producer (some (writeFlight i s))) := by
  refine (h.sampled _ _).setFlightP ?_ ?_
  · rintro _ ⟨⟩
    exact h.writeFlight_ok hw hlen
  · rintro _ ⟨⟩ hforce
    refine Option.eq_none_iff_forall_ne_some.mpr fun g (hg : s.portC.flight = some g) => ?_
    obtain ⟨-, hmoves, -⟩ := h.flightC g hg
    simp [not_barred h.inited (hrace hforce) hg] at hmoves

theorem startRead (h : Running s) (hr : movesReadCursor i = true) (hrace : readRace i s = none) :
    Running ((s.sampled .consumer false).setFlight .consumer (some (readFlight i s))) := by
  refine (h.sampled _ _).setFlightC ?_ ?_
  · rintro _ ⟨⟩
    exact h.readFlight_ok hr
  · intro g hg hforce
    simp [not_barred h.inited hrace (q := .producer) hg] at hforce

/-! ### Transfers -/

theorem store (h : Running s) (hf : s.portP.flight = some f) (hk : f.k < f.plan.n) (v : Byte) :
    Running ((s.storeByte f.cell v).setFlight .producer (some { f with k := f.k + 1 })) := by
  refine (h.storeByte _ _).setFlightP ?_ ?_
  · rintro _ ⟨⟩
    exact flightPOk_next (h.flightP f hf) hk
  · rintro _ ⟨⟩ hforce
    exact h.exclusive f hf hforce

theorem load (h : Running s) (hf : s.portC.flight = some f) (hk : f.k < f.plan.n) (out : List Byte) :
    Running (s.setFlight .consumer (some { f with k := f.k + 1, out := out })) := by
  refine h.setFlightC ?_ ?_
  · rintro _ ⟨⟩
    exact flightCOk_next (h.flightC f hf) hk out
  · intro g hg hforce
    rw [h.exclusive g hg hforce] at hf
    cases hf

/-! ### Commits -/

/-- A write that overwrites nothing adds its bytes to the buffer; port C only sees more bytes, port P as many fewer free
cells for every read cursor it may see (R36, R69). -/
theorem commitWrite_fits (h : Running s) (hf : s.portP.flight = some f) (ho : f.plan.ovw = false) :
    Running ((s.setFlight .producer none).commitCursors f.plan) := by
  obtain ⟨-, -, -, -, hnew, -, -, -, hfit, -⟩ := h.flightP f hf
  obtain ⟨hnewRc, hfree⟩ := hfit ho
  have hmore : dataLen s.wc s.rc s.cap.toNat ≤ dataLen (adv s.wc f.plan.n s.cap.toNat) s.rc s.cap.toNat := by
    rw [h.order.dataLen_adv_wc (hfree _ (.head _))]
    omega
  have hless : ∀ r ∈ s.rc :: s.staleRc,
      freeLen (adv s.wc f.plan.n s.cap.toNat) r s.cap.toNat = freeLen s.wc r s.cap.toNat - f.plan.n := fun r hr => by
    simp only [freeLen, (h.seenRc r hr).dataLen_adv_wc (hfree r hr)]
    omega
  have hseen : ∀ w ∈ adv s.wc f.plan.n s.cap.toNat ::
      remember s.cfg.cursorView s.staleWc s.wc (adv s.wc f.plan.n s.cap.toNat),
      w = adv s.wc f.plan.n s.cap.toNat ∨ w ∈ s.wc :: s.staleWc :=
    fun w hw => (List.mem_cons.mp hw).imp_right mem_remember
  rw [commitCursors_of_write hnew hnewRc ho]
  refine ⟨h.inited, h.legal, fun r hr => (h.seenRc r hr).adv_wc (hfree r hr), fun w hw => ?_,
    h.windowRc.imp fun a ha b hb hab => ?_, h.windowWc.remember hmore _, by simp, fun g hg => ?_, by simp, h.hostIdle⟩
  · obtain rfl | hw := hseen w hw
    · exact h.order.adv_wc (hfree _ (.head _))
    · exact h.seenWc w hw
  · simpa only [State.setFlight_cap, hless a ha, hless b hb] using Nat.sub_le_sub_right hab f.plan.n
  · obtain ⟨hinit, hr, hbase, hsnap, hnewW, hnewR, hovw, hk, hbuf⟩ := h.flightC g hg
    refine ⟨hinit, hr, hbase, hsnap, hnewW, hnewR, hovw, hk, fun w hw => ?_⟩
    obtain rfl | hw := hseen w hw
    · exact (hbuf _ (.head _)).trans hmore
    · exact hbuf w hw

/-- An overwriting write leaves a full buffer and closes both windows; port C is idle beside it (R71, R176, R270). -/
theorem commitWrite_overwrites (h : Running s) (hf : s.portP.flight = some f) (ho : f.plan.ovw = true) :
    Running ((s.setFlight .producer none).commitCursors f.plan) := by
  obtain ⟨-, -, -, -, hnew, hn, -, -, -, hovw⟩ := h.flightP f hf
  obtain ⟨hforce, hnewRc, -⟩ := hovw ho
  have hC := h.exclusive f hf hforce
  have hfull := (forcedRead_full h.order.small (adv_idx_lt h.order.wIdx hn h.order.small)).1
  rw [commitCursors_of_overwrite hnew hnewRc ho]
  refine ⟨h.inited, h.legal, List.forall_mem_singleton.mpr hfull, List.forall_mem_singleton.mpr hfull, window_nil,
    window_nil, by simp, fun g hg => ?_, by simp, h.hostIdle⟩
  rw [show s.portC.flight = some g from hg] at hC
  cases hC

theorem commitWrite (h : Running s) (hf : s.portP.flight = some f) :
    Running ((s.setFlight .producer none).commitCursors f.plan) := by
  cases ho : f.plan.ovw with
  | false => exact h.commitWrite_fits hf ho
  | true => exact h.commitWrite_overwrites hf ho

/-- A read takes its bytes off the buffer; port P only sees more free cells, port C as many fewer bytes for every write
cursor it may see (R36, R69). -/
theorem commitRead (h : Running s) (hf : s.portC.flight = some f) :
    Running ((s.setFlight .consumer none).commitCursors f.plan) := by
  obtain ⟨-, -, -, -, hnewWc, hnew, ho, -, hbuf⟩ := h.flightC f hf
  have hmore : freeLen s.wc s.rc s.cap.toNat ≤ freeLen s.wc (adv s.rc f.plan.n s.cap.toNat) s.cap.toNat := by
    simp only [freeLen, h.order.dataLen_adv_rc (hbuf _ (.head _))]
    omega
  have hless : ∀ w ∈ s.wc :: s.staleWc,
      dataLen w (adv s.rc f.plan.n s.cap.toNat) s.cap.toNat = dataLen w s.rc s.cap.toNat - f.plan.n :=
    fun w hw => (h.seenWc w hw).dataLen_adv_rc (hbuf w hw)
  have hseen : ∀ r ∈ adv s.rc f.plan.n s.cap.toNat ::
      remember s.cfg.cursorView s.staleRc s.rc (adv s.rc f.plan.n s.cap.toNat),
      r = adv s.rc f.plan.n s.cap.toNat ∨ r ∈ s.rc :: s.staleRc :=
    fun r hr => (List.mem_cons.mp hr).imp_right mem_remember
  rw [commitCursors_of_read hnewWc hnew ho]
  refine ⟨h.inited, h.legal, fun r hr => ?_, fun w hw => (h.seenWc w hw).adv_rc (hbuf w hw),
    h.windowRc.remember hmore _, h.windowWc.imp fun a ha b hb hab => ?_, fun g hg => ?_, by simp, fun _ _ _ => rfl,
    h.hostIdle⟩
  · obtain rfl | hr := hseen r hr
    · exact h.order.adv_rc (hbuf _ (.head _))
    · exact h.seenRc r hr
  · simpa only [State.setFlight_cap, hless a ha, hless b hb] using Nat.sub_le_sub_right hab f.plan.n
  · obtain ⟨hinit, hw, hbase, hsnap, hnewP, hn, hk, hlen, hfit, hovw⟩ := h.flightP g hg
    refine ⟨hinit, hw, hbase, hsnap, hnewP, hn, hk, hlen, fun hgo => ⟨(hfit hgo).1, fun r hr => ?_⟩, fun hgo => ?_⟩
    · obtain rfl | hr := hseen r hr
      · exact ((hfit hgo).2 _ (.head _)).trans hmore
      · exact (hfit hgo).2 r hr
    · rw [h.exclusive g hg (hovw hgo).1] at hf
      cases hf

/-! ### Lifecycle operations -/

/-- A block just bound is empty, with nothing in flight (R130, R132, R141). -/
theorem bound {c : Idx} (hc : LegalCap s.cfg c.toNat) (hP : s.portP.flight = none) (hC : s.portC.flight = none)
    (hH : s.portH.flight = none) : Running (s.bound true c) := by
  have hz : InLapOrder Cursor.zero Cursor.zero c.toNat := by
    obtain ⟨-, h4, -, -⟩ := hc
    have hpos : 0 < c.toNat := by omega
    exact ⟨c.isLt, hpos, hpos, by simp [lapOrder]⟩
  refine ⟨rfl, hc, ?_, ?_, window_nil, window_nil, fun f hf => ?_, fun f hf => ?_, fun _ _ _ => hC, hH⟩
  · simpa using hz
  · simpa using hz
  · simp [hP] at hf
  · simp [hC] at hf

end Running

theorem alignDown_le (x : Nat) : alignDown x ≤ x := Nat.sub_le _ _

/-- A request that does not fail sets a legal capacity (R22, R131, R132). -/
theorem legalCap_boundCap {c : Config} {capReq : Half} (hv : c.valid = true) (h : initFails c capReq = false) :
    LegalCap c (boundCap capReq).toNat := by
  obtain ⟨⟨h3, h15⟩, -⟩ : (3 ≤ c.idxW ∧ c.idxW ≤ 15) ∧ c.storageBytes ≤ c.capMax := by
    simpa [Config.valid] using hv
  obtain ⟨⟨⟨-, hpos⟩, hmax⟩, hst⟩ : ((capReq.toNat ≠ 0 ∧ alignDown capReq.toNat ≠ 0) ∧ capReq.toNat ≤ c.capMax) ∧
      capReq.toNat ≤ c.storageBytes := by
    simpa only [initFails, Bool.or_eq_false_iff, decide_eq_false_iff_not, Nat.not_lt] using h
  obtain ⟨k, hk⟩ : 4 ∣ 2 ^ c.idxW := pow_dvd_pow 2 (show 2 ≤ c.idxW by omega)
  have htop : 2 ^ c.idxW ≤ 2 ^ 15 := Nat.pow_le_pow_right (by omega) h15
  have hle := alignDown_le capReq.toNat
  have hcapMax : c.capMax = 2 ^ c.idxW - 1 := rfl
  have hmod : alignDown capReq.toNat % 4 = 0 := by unfold alignDown; omega
  rw [LegalCap, boundCap, idx_toNat_ofNat (by omega)]
  omega

/-! ### Every step -/

/-- An operation in flight on P is one of an initialised block (R228). -/
theorem running_of_flightP {s : State} {f : Flight} (hs : s.quietOk) (hf : s.portP.flight = some f) : Running s := by
  obtain ⟨-, -, -, -, hP, -⟩ := id hs
  obtain ⟨hi, -⟩ := hP f (Option.mem_toList.mpr hf)
  exact running_of_quietOk hs hi

/-- An operation in flight on C is one of an initialised block (R228). -/
theorem running_of_flightC {s : State} {f : Flight} (hs : s.quietOk) (hf : s.portC.flight = some f) : Running s := by
  obtain ⟨-, -, -, -, -, hC, -⟩ := id hs
  obtain ⟨hi, -⟩ := hC f (Option.mem_toList.mpr hf)
  exact running_of_quietOk hs hi

/-- Every effect keeps what holds of a state without a race. -/
theorem Effect.keeps_quietOk {i : Instr} {s t : State} (he : Effect i s t) (hv : s.cfg.valid = true) (hs : s.quietOk)
    (hr : t.raceFree) : t.quietOk := by
  have hH : s.portH.flight = none := by
    obtain ⟨-, -, -, -, -, -, -, hH⟩ := hs
    exact hH
  cases he with
  | kept h => exact h.quietOk hs
  | bound b c hb hidle h =>
    refine h.quietOk ?_
    obtain ⟨hP, hC⟩ := hidle hr
    cases hb with
    | init c hc | create c hc => exact (Running.bound (legalCap_boundCap hv hc) hP hC hH).quietOk
    | destroy => exact Unbound.quietOk ⟨rfl, ⟨rfl, rfl, rfl, rfl, rfl, hP, hC⟩, hH⟩
    | reset hi => exact (Running.bound (running_of_quietOk hs hi).legal hP hC hH).quietOk
  | looked hi h => exact h.quietOk ((running_of_quietOk hs hi).sampled _ _).quietOk
  | startedWrite hw hi _ hlen hrace h =>
    exact h.quietOk ((running_of_quietOk hs hi).startWrite hw hlen (hrace hr)).quietOk
  | startedRead hm hi _ hrace h => exact h.quietOk ((running_of_quietOk hs hi).startRead hm (hrace hr)).quietOk
  | stored f v _ hf hk _ _ h => exact h.quietOk ((running_of_flightP hs hf).store hf hk v).quietOk
  | loaded f hf hk h => exact h.quietOk ((running_of_flightC hs hf).load hf hk _).quietOk
  | committedWrite f _ hf _ _ h => exact h.quietOk ((running_of_flightP hs hf).commitWrite hf).quietOk
  | committedRead f _ hf h => exact h.quietOk ((running_of_flightC hs hf).commitRead hf).quietOk

/-- Only an `XFER` of a write changes the storage, at a cell that exists (R50, R52). -/
theorem Effect.keeps_storageOk {i : Instr} {s t : State} (he : Effect i s t) (hs : s.storageOk) : t.storageOk := by
  obtain ⟨hwf, hcells⟩ := hs
  cases he with
  | stored f v _ _ _ hcell _ h =>
    rw [State.storageOk, h.mem, h.cfg]
    refine ⟨Memory.write_keeps_wf f.cell v hwf, fun c hc => ?_⟩
    obtain rfl | hc := Memory.mem_write hc
    · exact hcell
    · exact hcells c hc
  | kept h | bound _ _ _ _ h | looked _ h | startedWrite _ _ _ _ _ h | startedRead _ _ _ _ h | loaded _ _ _ h
  | committedWrite _ _ _ _ _ h | committedRead _ _ _ h =>
    rw [State.storageOk, h.mem, h.cfg]
    exact ⟨hwf, hcells⟩

theorem raceFree_of_subset {s t : State} (h : s.faults ⊆ t.faults) (hr : t.raceFree) : s.raceFree :=
  fun f hf => hr f (h hf)

theorem SameBlock.inv {s t : State} (h : SameBlock s t) (hf : s.faults ⊆ t.faults) (hs : s.Inv) : t.Inv := by
  obtain ⟨hv, hst, hq⟩ := hs
  refine ⟨h.cfg ▸ hv, ?_, fun hr => h.quietOk (hq (raceFree_of_subset hf hr))⟩
  rwa [State.storageOk, h.mem, h.cfg]

/-- Every step of every instruction keeps the invariant. -/
theorem exec_keeps_inv {i : Instr} {s t : State} (hs : s.Inv) (h : exec i s = .next t) : t.Inv := by
  obtain ⟨hv, hst, hq⟩ := hs
  obtain ⟨hcfg, hfaults⟩ := exec_recording i s t h
  have he := exec_effect h
  exact ⟨hcfg ▸ hv, he.keeps_storageOk hst,
    fun hr => he.keeps_quietOk hv (hq (raceFree_of_subset hfaults hr)) hr⟩

theorem powerOn_inv {s : State} (h : s.cfg.valid = true) : s.powerOn.Inv :=
  ⟨h, ⟨List.Pairwise.nil, nofun⟩, fun _ => Unbound.quietOk ⟨rfl, ⟨rfl, rfl, rfl, rfl, rfl, rfl, rfl⟩, rfl⟩⟩

/-- Settles O55, by the cases of a step and, for an instruction, by its effects. -/
theorem stepKeepsInvariant : Obligations.StepKeepsInvariant := by
  intro s t hs h
  cases step_case h with
  | powerOn rest _ h => exact h ▸ powerOn_inv hs.1
  | kept h hf => exact h.inv hf hs
  | ran u i hu hf h => exact exec_keeps_inv (hu.inv (hf ▸ List.Subset.refl _) hs) h

/-- Settles O58: each effect writes what it writes by an instruction of its owner. -/
theorem onlyOwnersWriteState : Obligations.OnlyOwnersWriteState := by
  rintro s t i ⟨-, -, hq⟩ hr h
  have hq := hq hr
  cases exec_effect h with
  | kept h | looked _ h | startedWrite _ _ _ _ _ h | startedRead _ _ _ _ h | loaded _ _ _ h =>
    simp [h.inited, h.cap, h.wc, h.rc, h.mem]
  | bound b c hb _ h =>
    refine ⟨fun hne => ⟨hb.isLifecycle, ?_⟩, fun _ => .inl hb.isLifecycle, fun _ => .inl hb.isLifecycle,
      fun hne => absurd h.mem hne⟩
    rintro rfl
    obtain ⟨rfl, rfl⟩ := hb.of_reset
    simp [h.inited, h.cap] at hne
  | stored f v hw _ _ _ _ h => simp [h.inited, h.cap, h.wc, h.rc, hw]
  | committedWrite f hw hf hop _ h =>
    obtain ⟨-, -, -, -, -, -, -, -, hfit, hovw⟩ := (running_of_flightP hq hf).flightP f hf
    have hrc : t.rc ≠ s.rc → isForceWrite i = true := fun hne => by
      cases ho : f.plan.ovw with
      | true => exact hop ▸ (hovw ho).1
      | false => simp [h.rc, (hfit ho).1] at hne
    simp only [h.inited, h.cap, h.mem, hw]
    simpa using fun hne => .inr (.inr (hrc hne))
  | committedRead f hm hf h =>
    obtain ⟨-, -, -, -, hnew, -⟩ := (running_of_flightC hq hf).flightC f hf
    simp [h.inited, h.cap, h.wc, h.mem, hm, hnew]

end Sys2Proof.Machine
end

section
/-! SUPPORT. The buffered data: every effect of a step keeps what `State.DataInv` says of a state without a race
(R39, R64, R66, R69, R79). -/

namespace Sys2Proof.Machine

/-- A write leaves every written cell written (R52). -/
theorem Memory.isSome_read?_write {m : Memory} {j : Nat} (h : (Memory.read? m j).isSome = true) (i : Nat) (v : Byte) :
    (Memory.read? (Memory.write m i v) j).isSome = true := by
  by_cases hij : j = i
  · rw [hij, Memory.read?_write_same]
    rfl
  · rwa [Memory.read?_write_other m v hij]

/-- Every buffered cell is written, and the flights have moved what the cells hold (R39, R64). -/
structure Buffered (s : State) : Prop where
  written : ∀ i < dataLen s.wc s.rc s.cap.toNat, (Memory.read? s.mem (addr s.rc i s.cap.toNat)).isSome = true
  stored : ∀ f, s.portP.flight = some f → ∀ k < f.k,
    Memory.read? s.mem (addr s.wc k s.cap.toNat) = f.data[f.plan.skip + k]?
  length : ∀ f, s.portC.flight = some f → f.out.length = f.k
  loaded : ∀ f, s.portC.flight = some f → ∀ k < f.k, Memory.read? s.mem (addr s.rc k s.cap.toNat) = f.out[k]?

theorem dataInv_iff {s : State} : s.DataInv ↔ (s.raceFree → Buffered s) := by
  simp only [State.DataInv, List.mem_range, Option.mem_toList]
  refine forall_congr' fun _ => ⟨fun ⟨hw, hP, hC⟩ => ?_, fun h => ?_⟩
  · exact ⟨hw, hP, fun f hf => (hC f hf).1, fun f hf => (hC f hf).2⟩
  · exact ⟨h.written, h.stored, fun f hf => ⟨h.length f hf, h.loaded f hf⟩⟩

theorem SameBlock.buffered {s t : State} (h : SameBlock s t) (hs : Buffered s) : Buffered t := by
  have hP : t.portP.flight = s.portP.flight := h.flight .producer
  have hC : t.portC.flight = s.portC.flight := h.flight .consumer
  obtain ⟨hw, hst, hlen, hld⟩ := hs
  constructor
  all_goals simpa only [h.wc, h.rc, h.cap, h.mem, hP, hC]

/-- An empty buffer with nothing in flight holds no byte and owes none. -/
theorem buffered_of_empty {s : State} (hd : dataLen s.wc s.rc s.cap.toNat = 0) (hP : s.portP.flight = none)
    (hC : s.portC.flight = none) : Buffered s := by
  constructor <;> simp [hd, hP, hC]

theorem dataLen_self (c : Cursor) (cap : Nat) : dataLen c c cap = 0 := by simp [dataLen_eq]

namespace Buffered

variable {s : State} {f : Flight}

theorem sampled (h : Buffered s) (p : Port) (now : Bool) : Buffered (s.sampled p now) :=
  ⟨h.written, h.stored, h.length, h.loaded⟩

/-- A flight that has moved nothing yet owes nothing. -/
theorem startP (h : Buffered s) (i : Instr) (plan : Plan) (data : List Byte) :
    Buffered (s.setFlight .producer (some (freshFlight i plan data))) := by
  refine ⟨h.written, ?_, h.length, h.loaded⟩
  rintro _ ⟨⟩ k hk
  exact absurd hk (Nat.not_lt_zero k)

theorem startC (h : Buffered s) (i : Instr) (plan : Plan) (data : List Byte) :
    Buffered (s.setFlight .consumer (some (freshFlight i plan data))) := by
  refine ⟨h.written, h.stored, ?_, ?_⟩
  · rintro _ ⟨⟩
    rfl
  · rintro _ ⟨⟩ k hk
    exact absurd hk (Nat.not_lt_zero k)

/-- An `XFER` of a write stores a byte of the payload in a cell of its own, and in none that port C reads (R64, R79). -/
theorem store (h : Buffered s) (hr : Running s) (hf : s.portP.flight = some f) (hk : f.k < f.plan.n) {v : Byte}
    (hv : f.data[f.plan.skip + f.k]? = some v) :
    Buffered ((s.storeByte f.cell v).setFlight .producer (some { f with k := f.k + 1 })) := by
  obtain ⟨-, -, hbase, hsnap, -, hn, -, -, hfit, hovw⟩ := hr.flightP f hf
  have hcell : f.cell = addr s.wc f.k s.cap.toNat := by rw [Flight.cell, hbase, hsnap]
  refine ⟨fun i hi => Memory.isSome_read?_write (h.written i hi) _ _, ?_, h.length, ?_⟩
  · rintro _ ⟨⟩ k hk'
    show Memory.read? (Memory.write s.mem f.cell v) (addr s.wc k s.cap.toNat) = f.data[f.plan.skip + k]?
    obtain hlt | rfl := Nat.lt_succ_iff_lt_or_eq.mp hk'
    · rw [Memory.read?_write_other, h.stored f hf k hlt]
      rw [hcell, ne_eq, addr_inj (by omega) (by omega)]
      omega
    · rw [← hcell, Memory.read?_write_same, hv]
  · intro g hg k hk'
    have hg : s.portC.flight = some g := hg
    obtain ⟨-, -, -, -, -, -, -, hkg, hbuf⟩ := hr.flightC g hg
    have hin := hbuf _ (.head _)
    refine (Memory.read?_write_other _ _ ?_).trans (h.loaded g hg k hk')
    have ho : f.plan.ovw = false := by
      by_contra ho
      rw [hr.exclusive f hf (hovw (by simpa using ho)).1] at hg
      cases hg
    have hroom := (hfit ho).2 _ (.head _)
    rw [hcell]
    exact (hr.order.addr_wc_ne (by omega) (by omega)).symm

/-- An `XFER` of a read takes a byte that was written (R39, R64, R69). -/
theorem load (h : Buffered s) (hr : Running s) (hf : s.portC.flight = some f) (hk : f.k < f.plan.n) :
    Buffered (s.setFlight .consumer (some { f with k := f.k + 1, out := f.out ++ [s.byteAt f.cell] })) := by
  obtain ⟨-, -, hbase, hsnap, -, -, -, -, hbuf⟩ := hr.flightC f hf
  have hcell : f.cell = addr s.rc f.k s.cap.toNat := by rw [Flight.cell, hbase, hsnap]
  have hlen := h.length f hf
  obtain ⟨b, hb⟩ := Option.isSome_iff_exists.mp (h.written f.k (hk.trans_le (hbuf _ (.head _))))
  refine ⟨h.written, h.stored, ?_, ?_⟩
  · rintro _ ⟨⟩
    simp [hlen]
  · rintro _ ⟨⟩ k hk'
    show Memory.read? s.mem (addr s.rc k s.cap.toNat) = (f.out ++ [s.byteAt f.cell])[k]?
    obtain hlt | rfl := Nat.lt_succ_iff_lt_or_eq.mp hk'
    · rw [List.getElem?_append_left (by omega), h.loaded f hf k hlt]
    · rw [List.getElem?_append_right (by omega), hlen, Nat.sub_self, hcell, s.byteAt_of_written hb, hb]
      rfl

/-- All bytes of a write are in their cells when it commits (R65, R66). -/
theorem isSome_of_stored (h : Buffered s) (hr : Running s) (hf : s.portP.flight = some f) (hk : f.plan.n ≤ f.k)
    {j : Nat} (hj : j < f.plan.n) : (Memory.read? s.mem (addr s.wc j s.cap.toNat)).isSome = true := by
  obtain ⟨-, -, -, -, -, -, -, hlen, -, -⟩ := hr.flightP f hf
  rw [h.stored f hf j (by omega), List.getElem?_eq_getElem (by omega)]
  rfl

/-- A write that overwrites nothing puts its bytes behind those buffered (R39, R66). -/
theorem commitWrite_fits (h : Buffered s) (hr : Running s) (hf : s.portP.flight = some f) (hk : f.plan.n ≤ f.k)
    (ho : f.plan.ovw = false) : Buffered ((s.setFlight .producer none).commitCursors f.plan) := by
  obtain ⟨-, -, -, -, hnew, -, -, -, hfit, -⟩ := hr.flightP f hf
  obtain ⟨hnewRc, hfree⟩ := hfit ho
  have hroom := hfree _ (.head _)
  have hsum := hr.order.dataLen_add_freeLen
  rw [commitCursors_of_write hnew hnewRc ho]
  refine ⟨fun i hi => ?_, by simp, h.length, h.loaded⟩
  have hi : i < dataLen (adv s.wc f.plan.n s.cap.toNat) s.rc s.cap.toNat := hi
  rw [hr.order.dataLen_adv_wc hroom] at hi
  show (Memory.read? s.mem (addr s.rc i s.cap.toNat)).isSome = true
  by_cases hold : i < dataLen s.wc s.rc s.cap.toNat
  · exact h.written i hold
  · obtain ⟨j, rfl⟩ := Nat.exists_eq_add_of_le (Nat.le_of_not_lt hold)
    rw [← hr.order.addr_wc (by omega)]
    exact h.isSome_of_stored hr hf hk (by omega)

/-- After an overwrite the buffer is its own bytes and, before them, the newest of those that were buffered
(R39, R179). -/
theorem commitWrite_overwrites (h : Buffered s) (hr : Running s) (hf : s.portP.flight = some f) (hk : f.plan.n ≤ f.k)
    (ho : f.plan.ovw = true) : Buffered ((s.setFlight .producer none).commitCursors f.plan) := by
  obtain ⟨-, -, -, -, hnew, hn, -, -, -, hovw⟩ := hr.flightP f hf
  obtain ⟨hforce, hnewRc, hover⟩ := hovw ho
  have hC := hr.exclusive f hf hforce
  have hs := hr.order.small
  have hw := hr.order.wIdx
  have hsum := hr.order.dataLen_add_freeLen
  rw [commitCursors_of_overwrite hnew hnewRc ho]
  refine ⟨fun i hi => ?_, by simp, by simp [hC], by simp [hC]⟩
  have hi : i < s.cap.toNat := hi.trans_eq (forcedRead_full hs (adv_idx_lt hw hn hs)).2
  show (Memory.read? s.mem (addr (adv s.wc f.plan.n s.cap.toNat) i s.cap.toNat)).isSome = true
  by_cases hwrap : s.cap.toNat ≤ f.plan.n + i
  · rw [addr_adv_wraps hs hw hn hi hwrap]
    exact h.isSome_of_stored hr hf hk (by omega)
  · rw [addr_adv hs hw (by omega), hr.order.addr_wc_wraps (by omega) (by omega)]
    exact h.written _ (by omega)

theorem commitWrite (h : Buffered s) (hr : Running s) (hf : s.portP.flight = some f) (hk : f.plan.n ≤ f.k) :
    Buffered ((s.setFlight .producer none).commitCursors f.plan) := by
  cases ho : f.plan.ovw with
  | false => exact h.commitWrite_fits hr hf hk ho
  | true => exact h.commitWrite_overwrites hr hf hk ho

/-- A read leaves the bytes behind those it took (R39, R69). -/
theorem commitRead (h : Buffered s) (hr : Running s) (hf : s.portC.flight = some f) :
    Buffered ((s.setFlight .consumer none).commitCursors f.plan) := by
  obtain ⟨-, -, -, -, hnewWc, hnew, ho, -, hbuf⟩ := hr.flightC f hf
  have hin := hbuf _ (.head _)
  have hle := hr.order.dataLen_le
  rw [commitCursors_of_read hnewWc hnew ho]
  refine ⟨fun i hi => ?_, h.stored, by simp, by simp⟩
  have hi : i < dataLen s.wc (adv s.rc f.plan.n s.cap.toNat) s.cap.toNat := hi
  rw [hr.order.dataLen_adv_rc hin] at hi
  show (Memory.read? s.mem (addr (adv s.rc f.plan.n s.cap.toNat) i s.cap.toNat)).isSome = true
  rw [addr_adv hr.order.small hr.order.rIdx (by omega)]
  exact h.written _ (by omega)

end Buffered

/-- Every effect keeps the data of a state without a race. -/
theorem Effect.keeps_buffered {i : Instr} {s t : State} (he : Effect i s t) (hq : s.quietOk) (hs : Buffered s)
    (hr : t.raceFree) : Buffered t := by
  cases he with
  | kept h => exact h.buffered hs
  | bound b c _ hidle h =>
    obtain ⟨hP, hC⟩ := hidle hr
    exact h.buffered (buffered_of_empty (dataLen_self _ _) hP hC)
  | looked _ h => exact h.buffered (hs.sampled _ _)
  | startedWrite _ _ _ _ _ h => exact h.buffered ((hs.sampled _ _).startP _ _ _)
  | startedRead _ _ _ _ h => exact h.buffered ((hs.sampled _ _).startC _ _ _)
  | stored f v _ hf hk _ hv h => exact h.buffered (hs.store (running_of_flightP hq hf) hf hk hv)
  | loaded f hf hk h => exact h.buffered (hs.load (running_of_flightC hq hf) hf hk)
  | committedWrite f _ hf _ hk h => exact h.buffered (hs.commitWrite (running_of_flightP hq hf) hf hk)
  | committedRead f _ hf h => exact h.buffered (hs.commitRead (running_of_flightC hq hf) hf)

theorem powerOn_buffered (s : State) : Buffered s.powerOn := buffered_of_empty (dataLen_self _ _) rfl rfl

/-- Settles O56, by the cases of a step and, for an instruction, by its effects. -/
theorem stepKeepsBufferedData : Obligations.StepKeepsBufferedData := by
  rintro s t ⟨-, -, hq⟩ hd h
  rw [dataInv_iff] at hd ⊢
  intro hr
  cases step_case h with
  | powerOn rest _ h => exact h ▸ powerOn_buffered _
  | kept h hf => exact h.buffered (hd (raceFree_of_subset hf hr))
  | ran u i hu hf h =>
    have hs : s.raceFree := raceFree_of_subset (hf ▸ (exec_recording i u t h).faults) hr
    exact (exec_effect h).keeps_buffered (hu.quietOk (hq hs)) (hu.buffered (hd hs)) hr

/-- The state after reset is that of a power-on reset (R40, R260). -/
theorem powerOn_reset : State.reset.powerOn = State.reset := rfl

/-- Settles O54. -/
theorem resetMeetsInvariant : Obligations.ResetMeetsInvariant := by
  refine ⟨rfl, rfl, rfl, rfl, rfl, rfl, fun p => by cases p <;> rfl, ?_, ?_⟩
  · exact powerOn_reset ▸ powerOn_inv (s := State.reset) (by decide)
  · exact dataInv_iff.mpr fun _ => powerOn_reset ▸ powerOn_buffered State.reset

end Sys2Proof.Machine
end

section
/-! SUPPORT. The content of the buffer (R39) under the atomic readings of `PUT` and `GET`. -/

namespace Sys2Proof.Machine

/-! ### Runs of bytes -/

/-- A run of writes leaves every cell outside it (R52). -/
theorem read?_writeAll_other {c : Cursor} {cap x : Nat} {bs : List Byte} {k : Nat} {m : Memory}
    (h : ∀ j < bs.length, x ≠ addr c (k + j) cap) :
    Memory.read? (writeAll c cap k bs m) x = Memory.read? m x := by
  induction bs generalizing k m with
  | nil => rfl
  | cons b bs ih =>
    rw [writeAll, ih fun j hj => ?_]
    · exact Memory.read?_write_other m b (h 0 (by simp))
    · rw [Nat.add_assoc, Nat.add_comm 1]
      exact h (j + 1) (by simpa using hj)

/-- A run of writes of at most `cap` bytes stores each of them (R52, R165). -/
theorem read?_writeAll_same {c : Cursor} {cap : Nat} {bs : List Byte} {k : Nat} {m : Memory}
    (hcap : k + bs.length ≤ cap) {j : Nat} (hj : j < bs.length) :
    Memory.read? (writeAll c cap k bs m) (addr c (k + j) cap) = bs[j]? := by
  induction bs generalizing k m j with
  | nil => cases hj
  | cons b bs ih =>
    rw [List.length_cons] at hcap hj
    cases j with
    | zero =>
      rw [writeAll, read?_writeAll_other fun j hj => ?_, Nat.add_zero, Memory.read?_write_same]
      · rfl
      · rw [ne_eq, addr_inj (by omega) (by omega)]
        omega
    | succ j =>
      have hshift : k + (j + 1) = k + 1 + j := by omega
      rw [writeAll, hshift]
      exact ih (by omega) (by omega)

/-- Reads of written cells return what they hold and change nothing (R51, R185). -/
theorem readAll_written {c : Cursor} {cap n k : Nat} {s : State}
    (h : ∀ j < n, (Memory.read? s.mem (addr c (k + j) cap)).isSome = true) :
    (readAll c cap k n s).map some = (List.range n).map (fun j => Memory.read? s.mem (addr c (k + j) cap)) ∧
      afterReadAll c cap k n s = s := by
  induction n generalizing k with
  | zero => exact ⟨rfl, rfl⟩
  | succ n ih =>
    obtain ⟨b, hb⟩ := Option.isSome_iff_exists.mp (h 0 n.succ_pos)
    rw [Nat.add_zero] at hb
    obtain ⟨hrest, hafter⟩ := ih (k := k + 1) fun j hj => by
      rw [Nat.add_assoc, Nat.add_comm 1]
      exact h (j + 1) (by omega)
    rw [readAll, afterReadAll, s.afterRead_of_written hb, s.byteAt_of_written hb]
    refine ⟨?_, hafter⟩
    rw [List.map_cons, hrest, List.range_succ_eq_map, List.map_cons, List.map_map]
    refine congrArg₂ _ hb.symm (List.map_congr_left fun j _ => ?_)
    rw [Function.comp_apply, Nat.add_assoc, Nat.add_comm 1]

/-! ### Content -/

/-- Writing `bs` at the write cursor and advancing it appends `bs` to the content (R39, R169). -/
theorem content_append {s t : State} {bs : List Byte} (ho : InLapOrder s.wc s.rc s.cap.toNat)
    (hfree : bs.length ≤ freeLen s.wc s.rc s.cap.toNat) (hcap : t.cap = s.cap) (hrc : t.rc = s.rc)
    (hwc : t.wc = adv s.wc bs.length s.cap.toNat) (hmem : t.mem = writeAll s.wc s.cap.toNat 0 bs s.mem) :
    t.content = s.content ++ bs.map some := by
  have hsum := ho.dataLen_add_freeLen
  rw [State.content, State.content, hcap, hrc, hwc, hmem, ho.dataLen_adv_wc hfree, List.range_add, List.map_append,
    List.map_map]
  congr 1
  · refine List.map_congr_left fun i hi => read?_writeAll_other fun j hj => ?_
    rw [Nat.zero_add]
    exact (ho.addr_wc_ne (by omega) (List.mem_range.mp hi)).symm
  · refine List.ext_getElem (by simp) fun j hj _ => ?_
    have hj : j < bs.length := by simpa using hj
    have hread := read?_writeAll_same (c := s.wc) (m := s.mem) (show 0 + bs.length ≤ s.cap.toNat by omega) hj
    rw [Nat.zero_add, ho.addr_wc (by omega)] at hread
    simpa [hj] using hread

/-- The content is its first `n` bytes and what is left when the read cursor has advanced past them (R39, R187). -/
theorem content_split {s t : State} {n : Nat} (ho : InLapOrder s.wc s.rc s.cap.toNat)
    (hn : n ≤ dataLen s.wc s.rc s.cap.toNat) (hcap : t.cap = s.cap) (hwc : t.wc = s.wc)
    (hrc : t.rc = adv s.rc n s.cap.toNat) (hmem : t.mem = s.mem) :
    s.content = (List.range n).map (fun j => Memory.read? s.mem (addr s.rc j s.cap.toNat)) ++ t.content := by
  have hle := ho.dataLen_le
  rw [State.content, State.content, hcap, hrc, hwc, hmem, ho.dataLen_adv_rc hn]
  conv_lhs => rw [← Nat.add_sub_cancel' hn, List.range_add, List.map_append, List.map_map]
  congr 1
  refine List.map_congr_left fun i hi => ?_
  rw [Function.comp_apply, addr_adv ho.small ho.rIdx]
  have := List.mem_range.mp hi
  omega

/-- A count of at most `cap` bytes fits the response field (R58, R101). -/
theorem count_toNat {n : Nat} {cap : Idx} (h : n ≤ cap.toNat) : (BitVec.ofNat 16 n).toNat = n := by
  rw [BitVec.toNat_ofNat]
  exact Nat.mod_eq_of_lt (h.trans_lt (cap.isLt.trans (by decide)))

/-- Settles O40: the first bytes of the payload go behind the content. -/
theorem putAppendsToContent : Obligations.PutAppendsToContent := by
  intro s len d hs hw _ hd
  have ho := inLapOrder_of_initedOk hs
  obtain ⟨-, hwindow⟩ := hw
  have hview := freeLen_snapshot_le hwindow false (.head _)
  obtain ⟨n, hn⟩ : ∃ n, putCount len (s.snapshot .producer false) = n := ⟨_, rfl⟩
  have hmin : n = min len.toNat (freeLen s.wc (s.snapshot .producer false).rc s.cap.toNat) := by
    rw [← hn, putCount, State.snapshot_producer_wc, State.snapshot_cap]
  have hfree := freeLen_le s.wc s.rc s.cap.toNat
  have hr0 : (atomicPut len d s).2.r0 = BitVec.ofNat 16 n := hn ▸ rfl
  have hcount : (atomicPut len d s).2.r0.toNat = n := hr0 ▸ count_toNat (cap := s.cap) (by omega)
  have hlen : (d.take n).length = n := by simp; omega
  rw [hcount]
  refine ⟨content_append ho (by omega) rfl rfl ?_ ?_, rfl, by omega, fun hf => ?_⟩
  · simp [atomicPut, State.writeThrough, putPlan, writePlan, hn, hlen]
  · simp [atomicPut, State.writeThrough, putPlan, writePlan, hn]
  · rw [hmin, s.snapshot_fresh _ _ hf]

/-- Settles O42: the bytes read are the first of the content. -/
theorem getTakesOldestBytes : Obligations.GetTakesOldestBytes := by
  intro s len hs hw _ hwritten
  have ho := inLapOrder_of_initedOk hs
  have hle := ho.dataLen_le
  obtain ⟨-, hwindow⟩ := hw
  have hview := dataLen_snapshot_le hwindow false (.head _)
  obtain ⟨n, hn⟩ : ∃ n, getCount len (s.snapshot .consumer false) = n := ⟨_, rfl⟩
  have hmin : n = min len.toNat (dataLen (s.snapshot .consumer false).wc s.rc s.cap.toNat) := by
    rw [← hn, getCount, State.snapshot_consumer_rc, State.snapshot_cap]
  have hr0 : (atomicGet len s).2.r0 = BitVec.ofNat 16 n := hn ▸ rfl
  have hcount : (atomicGet len s).2.r0.toNat = n := hr0 ▸ count_toNat (cap := s.cap) (by omega)
  obtain ⟨hread, hafter⟩ := readAll_written (c := s.rc) (cap := s.cap.toNat) (n := n) (k := 0)
    (s := s.sampled .consumer false) fun j hj => by
      rw [Nat.zero_add]
      exact hwritten _ (List.mem_map.mpr ⟨j, List.mem_range.mpr (by omega), rfl⟩)
  have hpayload : (atomicGet len s).2.payload = readAll s.rc s.cap.toNat 0 n (s.sampled .consumer false) := by
    simp [atomicGet, State.readBytes, readPlan, hn]
  have hstate : (atomicGet len s).1 =
      (s.sampled .consumer false).commitCursors (readPlan n (s.snapshot .consumer false)) := by
    simp [atomicGet, State.readThrough, readPlan, hn, hafter]
  rw [hcount, hpayload, hread, hstate]
  refine ⟨?_, ?_, by omega, fun hf => ?_, rfl⟩
  · simpa using content_split (t := (s.sampled .consumer false).commitCursors (readPlan n (s.snapshot .consumer false)))
      ho (n := n) (by omega) rfl rfl (by simp [readPlan]) rfl
  · simpa using congrArg List.length hread
  · rw [hmin, s.snapshot_fresh _ _ hf]

end Sys2Proof.Machine
end

section
/-! SUPPORT. Cells, advances and runs in numbers (R54, R55, R56). -/

namespace Sys2Proof.Machine

/-- Below `cap` the multiplexer names a cell below `cap` (R54). -/
theorem addr_lt {c : Cursor} {i cap : Nat} (hc : c.idx.toNat < cap) (hi : i < cap) : addr c i cap < cap := by
  unfold addr
  split <;> omega

/-- Settles O5: one subtraction of `cap` is the whole remainder. -/
theorem addrIsModulo : Obligations.AddrIsModulo := by
  intro c i cap hc hi
  refine ⟨rfl, ?_, addr_lt hc hi, fun _ => rfl⟩
  unfold addr
  split
  · rw [Nat.mod_eq_sub_mod ‹_›, Nat.mod_eq_of_lt (by omega)]
  · rw [Nat.mod_eq_of_lt (by omega)]

/-- Settles O6: the two cases of an advance, and its ends `n = 0` and `n = cap`. -/
theorem advanceFlipsLapAtEnd : Obligations.AdvanceFlipsLapAtEnd := by
  intro c n cap hc hn hs
  have hidx := adv_idx_toNat hc hn hs
  have hlap := adv_lap c n cap
  refine ⟨fun hwrap => ?_, fun hin => ?_, ?_, ?_, adv_idx_lt hc hn hs⟩
  · simp [hidx, hlap, hwrap]
  · simp [hidx, hlap, Nat.not_le.mpr hin]
  · rw [cursor_eq_iff, adv_idx_toNat hc (Nat.zero_le _) hs, adv_lap]
    simp [Nat.not_le.mpr hc]
  · rw [cursor_eq_iff, adv_idx_toNat hc le_rfl hs, adv_lap]
    simp

/-- Settles O7: the first run ends where the storage does. -/
theorem runsMakeUpTransfer : Obligations.RunsMakeUpTransfer := by
  intro c n cap hc hn
  refine ⟨rfl, ?_, fun i hi => ?_, fun i hi hin => ?_, ?_, ?_⟩
  · unfold run2 run1; omega
  · unfold run1 at hi; unfold addr; split <;> omega
  · unfold run1 at *; unfold addr; split <;> omega
  · unfold run2 run1; omega
  · rw [adv_lap]; split <;> simp [*]

end Sys2Proof.Machine
end

section
/-! SUPPORT. Lifecycle operations with ports P and C idle (R130 to R145): no race is recorded, and the block is bound,
unbound, or its cursors are cleared. -/

namespace Sys2Proof.Machine

/-- With ports P and C idle a lifecycle operation is no race (R271). -/
theorem lifecycleRace_of_idle {s : State} (i : Instr) (hP : s.portP.flight = none) (hC : s.portC.flight = none) :
    lifecycleRace i s = none := by
  simp [lifecycleRace, State.busyWith, hP, hC]

theorem busy_of_idle {s : State} {p : Port} (h : (s.port p).flight = none) : s.busy p = false := by
  simp [State.busy, h]

/-- A command accepted and answered in one step, with the port idle and nothing else of any port touched in between. -/
theorem answeredAtOnce_respond {s u : State} {p : Port} (r : Response) (h : ∀ q, u.port q = (s.accept p).port q) :
    answeredAtOnce p r s (u.respond p r) := by
  refine ⟨by simp [h], fun q hq => by simp [h, hq]⟩

/-- A request that the block can bind does not fail (R131). -/
theorem initFails_eq_false {c : Config} {capReq : Half} (h4 : 4 ≤ capReq.toNat) (hmax : capReq.toNat ≤ c.capMax)
    (hst : capReq.toNat ≤ c.storageBytes) : initFails c capReq = false := by
  have hpos : alignDown capReq.toNat ≠ 0 := by unfold alignDown; omega
  simp only [initFails, Bool.or_eq_false_iff, decide_eq_false_iff_not]
  omega

/-- The capacity a request sets is the request aligned, which fits its register (R10, R132). -/
theorem boundCap_toNat {c : Config} {capReq : Half} (hv : c.valid = true) (hmax : capReq.toNat ≤ c.capMax) :
    (boundCap capReq).toNat = alignDown capReq.toNat := by
  obtain ⟨⟨-, h15⟩, -⟩ : (3 ≤ c.idxW ∧ c.idxW ≤ 15) ∧ c.storageBytes ≤ c.capMax := by
    simpa [Config.valid] using hv
  have htop : 2 ^ c.idxW ≤ 2 ^ 15 := Nat.pow_le_pow_right (by omega) h15
  have hle := alignDown_le capReq.toNat
  have hcapMax : c.capMax = 2 ^ c.idxW - 1 := rfl
  exact idx_toNat_ofNat (by omega)

theorem bindStorage_binds {s : State} {i : Instr} {c : Half} (h : s.canAccept .host i) (hP : s.portP.flight = none)
    (hC : s.portC.flight = none) (hok : initFails s.cfg c = false) :
    bindStorage i c s = .next (((s.accept .host).bound true (boundCap c)).respond .host
      (Response.value (BitVec.ofNat 16 (alignDown c.toNat)))) := by
  obtain ⟨hidle, hlen⟩ := h
  rw [bindStorage, accepting_eq (busy_of_idle hidle) hlen, lifecycleRace_of_idle i (by simpa) (by simpa)]
  simp [hok]

/-- Settles O12. -/
theorem initAndCreateBindStorage : Obligations.InitAndCreateBindStorage := by
  intro s c i hi hv h hP hC h4 hmax hst
  have hexec : exec i s = bindStorage i c s := by obtain rfl | rfl := hi <;> rfl
  rw [hexec, bindStorage_binds h hP hC (initFails_eq_false h4 hmax hst)]
  exact ⟨_, rfl, rfl, boundCap_toNat hv hmax, rfl, rfl, rfl, rfl, rfl, rfl, answeredAtOnce_respond _ (by simp)⟩

/-- Settles O14. -/
theorem destroyReturnsToUninit : Obligations.DestroyReturnsToUninit := by
  rintro s ⟨hidle, hlen⟩ hP hC
  rw [exec, execDestroy, accepting_eq (busy_of_idle hidle) hlen, lifecycleRace_of_idle _ (by simpa) (by simpa)]
  exact ⟨_, rfl, rfl, rfl, rfl, rfl, rfl, rfl, rfl, rfl, answeredAtOnce_respond _ (by simp)⟩

/-- Settles O15, on an initialised block and in the UNINIT state. -/
theorem resetClearsCursors : Obligations.ResetClearsCursors := by
  rintro s ⟨hidle, hlen⟩ hP hC
  rw [exec, execReset, accepting_eq (busy_of_idle hidle) hlen, lifecycleRace_of_idle _ (by simpa) (by simpa),
    State.raiseIf_none, State.accept_inited]
  cases hi : s.inited with
  | true =>
    exact ⟨_, rfl, rfl, rfl, rfl, rfl, fun _ => ⟨rfl, rfl, rfl, rfl⟩, nofun, answeredAtOnce_respond _ (by simp)⟩
  | false =>
    exact ⟨_, rfl, hi, rfl, rfl, rfl, nofun, fun _ => ⟨rfl, rfl⟩, answeredAtOnce_respond _ (by simp)⟩

end Sys2Proof.Machine
end

section
/-! SUPPORT. What a step leaves at its port, and the samples (R63, R70, R71): each is one next state, and what a plan
holds is read off it. -/

namespace Sys2Proof.Machine

/-! ### One read operation at a time -/

@[simp] theorem readOpCount_get (len : Half) (v : Snapshot) : readOpCount (.get len) v = getCount len v := rfl
@[simp] theorem readOpCount_getchar (v : Snapshot) : readOpCount .getchar v = getcharCount v := rfl
@[simp] theorem readOpCount_peek (v : Snapshot) : readOpCount .peek v = peekCount v := rfl
@[simp] theorem readOpResponse_get (len : Half) : readOpResponse (.get len) = getResponse := rfl
@[simp] theorem readOpResponse_getchar : readOpResponse .getchar = getcharResponse := rfl
@[simp] theorem readOpResponse_peek : readOpResponse .peek = peekResponse := rfl

/-! ### Ports -/

/-- A port that has accepted a command holds it as the operation in flight (R61, R63). -/
theorem startedFlight_setFlight {s u : State} {p : Port} (f : Flight) (h : ∀ q, u.port q = (s.accept p).port q) :
    startedFlight p f s (u.setFlight p (some f)) := by
  refine ⟨by simp [h], fun q hq => by simp [h, hq]⟩

/-- A port whose operation has moved one byte holds it so (R64). -/
theorem wentOn_setFlight {s u : State} {p : Port} (f : Flight) (h : ∀ q, u.port q = s.port q) :
    wentOn p f s (u.setFlight p (some f)) := by
  refine ⟨by simp [h], fun q hq => by simp [h, hq]⟩

/-- A port that commits becomes idle and answers (R65). -/
theorem finishedFlight_respond {s u : State} {p : Port} (r : Response) (h : ∀ q, u.port q = s.port q) :
    finishedFlight p r s ((u.setFlight p none).respond p r) := by
  refine ⟨by simp [h], fun q hq => by simp [h, hq]⟩

/-! ### Samples -/

/-- A write operation that records no race latches its flight (R63). -/
theorem exec_write_sample {i : Instr} {s : State} (hw : writesCells i = true) (h : s.canAccept .producer i)
    (hi : s.inited = true) (hrace : writeOpRace i i s = none) :
    exec i s = .next (((s.accept .producer).sampled .producer (isForceWrite i)).setFlight .producer
      (some (writeFlight i s))) := by
  obtain ⟨hidle, hlen⟩ := h
  have hrace : writeOpRace i i (s.accept .producer) = none := by
    rw [← hrace]
    unfold writeOpRace
    split
    · exact raceAgainst_accept _ _ _ _ _
    · rfl
  rw [exec_write hw, phased_idle hidle, accepting_eq (busy_of_idle hidle) hlen,
    sample_inited (s := s.accept .producer) hi, hrace]
  rfl

/-- A read operation that records no race latches its flight (R63). -/
theorem exec_read_sample {i : Instr} {s : State} (hr : movesReadCursor i = true) (h : s.canAccept .consumer i)
    (hi : s.inited = true) (hrace : readRace i s = none) :
    exec i s = .next (((s.accept .consumer).sampled .consumer false).setFlight .consumer (some (readFlight i s))) := by
  obtain ⟨hidle, hlen⟩ := h
  have hrace : readRace i (s.accept .consumer) = none := (raceAgainst_accept _ _ _ _ _).trans hrace
  rw [exec_read hr, phased_idle hidle, accepting_eq (busy_of_idle hidle) hlen,
    sample_inited (s := s.accept .consumer) hi, hrace]
  rfl

/-- With port C idle no write operation races (R270). -/
theorem writeOpRace_of_idle {s : State} (i : Instr) (hC : s.portC.flight = none) : writeOpRace i i s = none := by
  unfold writeOpRace
  split
  · simp [forceWriteRace, raceAgainst, hC]
  · rfl

/-- With no force write in flight no read operation races (R270). -/
theorem readRace_of_noForceWrite {s : State} (i : Instr)
    (h : ∀ f ∈ s.portP.flight.toList, isForceWrite f.op = false) : readRace i s = none := by
  unfold readRace raceAgainst
  split
  · split
    · rename_i f hf
      simp [h f (Option.mem_toList.mpr hf)]
    · rfl
  · rfl

/-- What port P sees of the read cursor is the present one or one of its window, under `fresh` the present one
(R70, R71). -/
theorem snapshot_rc_visible (s : State) (now : Bool) : (s.snapshot .producer now).rc ∈ s.rc :: s.staleRc ∧
    (s.cfg.cursorView = .fresh → (s.snapshot .producer now).rc = s.rc) := by
  obtain ⟨k, -, hseen, -⟩ := sample_sees_rc s now
  exact ⟨hseen ▸ seenCursor_mem _ _ _, fun hf => by rw [s.snapshot_fresh _ _ hf]⟩

/-- What port C sees of the write cursor is the present one or one of its window, under `fresh` the present one
(R70, R71). -/
theorem snapshot_wc_visible (s : State) (now : Bool) : (s.snapshot .consumer now).wc ∈ s.wc :: s.staleWc ∧
    (s.cfg.cursorView = .fresh → (s.snapshot .consumer now).wc = s.wc) := by
  obtain ⟨k, -, hseen, -⟩ := sample_sees_wc s now
  exact ⟨hseen ▸ seenCursor_mem _ _ _, fun hf => by rw [s.snapshot_fresh _ _ hf]⟩

/-- The cursor seen heads what stays visible of its window. -/
theorem head?_drop_window {past : List Cursor} {k : Nat} (hk : k ≤ past.length) (now : Cursor) :
    (past.drop k ++ [now]).head? = some (seenCursor past now k) := by
  rw [← List.drop_append_of_le_length hk, List.head?_drop, seenCursor, List.getD_eq_getElem?_getD]
  obtain hlt | rfl := Nat.lt_or_eq_of_le hk
  · simp [List.getElem?_append_left hlt, hlt]
  · simp

/-- Settles O23: a sample cuts its window in two where it saw it. -/
theorem staleSampleStaysInWindow : Obligations.StaleSampleStaysInWindow := by
  intro s _
  obtain ⟨k, hk, hseen, hpast⟩ := sample_sees_rc s false
  obtain ⟨j, hj, hseen', hpast'⟩ := sample_sees_wc s false
  refine ⟨⟨by simp, by simp, s.staleRc.take k, ?_, ?_⟩, by simp, by simp, s.staleWc.take j, ?_, ?_⟩
  · rw [hpast, List.take_append_drop]
  · rw [hpast, hseen, head?_drop_window hk]
  · rw [hpast', List.take_append_drop]
  · rw [hpast', hseen', head?_drop_window hj]

/-- A write operation's `SAMPLE` starts its flight and changes no register, cell or recorded fault (R63). -/
theorem write_sample_starts {i : Instr} {s : State} (hw : writesCells i = true) (h : s.canAccept .producer i)
    (hi : s.inited = true) (hrace : writeOpRace i i s = none) :
    ∃ t, exec i s = .next t ∧ startedFlight .producer (writeFlight i s) s t ∧ sameRegisters s t ∧ t.mem = s.mem ∧
      t.faults = s.faults :=
  ⟨_, exec_write_sample hw h hi hrace, startedFlight_setFlight _ (by simp), ⟨rfl, rfl, rfl, rfl⟩, rfl, rfl⟩

/-- A read operation's `SAMPLE` starts its flight and changes no register, cell or recorded fault (R63). -/
theorem read_sample_starts {i : Instr} {s : State} (hr : movesReadCursor i = true) (h : s.canAccept .consumer i)
    (hi : s.inited = true) (hrace : readRace i s = none) :
    ∃ t, exec i s = .next t ∧ startedFlight .consumer (readFlight i s) s t ∧ sameRegisters s t ∧ t.mem = s.mem ∧
      t.faults = s.faults :=
  ⟨_, exec_read_sample hr h hi hrace, startedFlight_setFlight _ (by simp), ⟨rfl, rfl, rfl, rfl⟩, rfl, rfl⟩

/-- Settles O24. -/
theorem putSamplesPlan : Obligations.PutSamplesPlan := by
  intro s len h hi
  obtain ⟨t, hexec, hstart, hreg, hmem, hfaults⟩ := write_sample_starts rfl h hi rfl
  obtain ⟨hseen, hfresh⟩ := snapshot_rc_visible s false
  refine ⟨t, _, _, hexec, hstart, hreg, hmem, hfaults, hseen, hfresh, rfl, rfl, rfl, rfl, ?_⟩
  simp [writeFlight, freshFlight, writeOpPlan, putPlan, writePlan, putCount, isForceWrite]

/-- Settles O25. -/
theorem putForceSamplesPlan : Obligations.PutForceSamplesPlan := by
  intro s len h hi hC
  obtain ⟨t, hexec, hstart, hreg, hmem, hfaults⟩ := write_sample_starts rfl h hi (writeOpRace_of_idle _ hC)
  refine ⟨t, _, hexec, hstart, hreg, hmem, hfaults, rfl, rfl, rfl, ?_⟩
  simp +contextual [writeFlight, freshFlight, writeOpPlan, putForcePlan, forcePlan, putForceCount, isForceWrite,
    State.snapshot_now, forcedRead]

/-- Settles O26. -/
theorem singleByteWritesSamplePlan : Obligations.SingleByteWritesSamplePlan := by
  intro s b hi
  refine ⟨fun h => ?_, fun h hC => ?_⟩
  · obtain ⟨t, hexec, hstart, hreg, hmem, hfaults⟩ := write_sample_starts rfl h hi rfl
    obtain ⟨hseen, hfresh⟩ := snapshot_rc_visible s false
    refine ⟨t, _, _, hexec, hstart, hreg, hmem, hfaults, hseen, hfresh, rfl, rfl, rfl, ?_⟩
    simp [writeFlight, freshFlight, writeOpPlan, putcharPlan, writePlan, putcharCount, isForceWrite]
  · obtain ⟨t, hexec, hstart, hreg, hmem, hfaults⟩ := write_sample_starts rfl h hi (writeOpRace_of_idle _ hC)
    refine ⟨t, _, hexec, hstart, hreg, hmem, hfaults, rfl, rfl, rfl, ?_⟩
    simp [writeFlight, freshFlight, writeOpPlan, putcharForcePlan, forcePlan, isForceWrite, State.snapshot_now,
      forcedRead]

/-- Settles O27. -/
theorem readsSamplePlan : Obligations.ReadsSamplePlan := by
  intro s i hr h hi hforce
  obtain ⟨t, hexec, hstart, hreg, hmem, hfaults⟩ := read_sample_starts hr h hi (readRace_of_noForceWrite i hforce)
  obtain ⟨hseen, hfresh⟩ := snapshot_wc_visible s false
  refine ⟨t, _, _, hexec, hstart, hreg, hmem, hfaults, hseen, hfresh, rfl, rfl, rfl, ?_⟩
  simp only [readFlight, freshFlight, readPlan, State.snapshot_consumer_rc, State.snapshot_cap, true_and]
  refine ⟨fun len hop => ?_, fun hop => ?_, fun hop => ?_⟩
  · rw [hop, readOpCount_get, getCount, State.snapshot_consumer_rc, State.snapshot_cap]
  · rw [hop, readOpCount_getchar, getcharCount, State.snapshot_consumer_rc]
  · rw [hop, readOpCount_peek, peekCount, contig, run1, State.snapshot_consumer_rc, State.snapshot_cap]

end Sys2Proof.Machine
end

section
/-! SUPPORT. Transfers and commits (R64, R65), each as the one next state it answers, and the direct read (R198, R199). -/

namespace Sys2Proof.Machine

/-! ### Transfers -/

/-- A write operation with bytes left stores the next one (R64). -/
theorem exec_write_xfer {s : State} {f : Flight} {v : Byte} (hw : writesCells f.op = true)
    (hf : s.portP.flight = some f) (hk : f.k < f.plan.n) (hcell : f.cell < s.cfg.storageBytes)
    (hv : f.data[f.plan.skip + f.k]? = some v) :
    exec f.op s = .next ((s.storeByte f.cell v).setFlight .producer (some { f with k := f.k + 1 })) := by
  rw [exec_write hw, phased_xfer (p := .producer) hf rfl hk]
  simp [storeXfer, hcell, hv]

/-- A read operation that moves bytes, with bytes left, reads the next one (R64). -/
theorem exec_read_xfer {s : State} {f : Flight} (hr : movesReadCursor f.op = true) (hp : f.op ≠ .peek)
    (hf : s.portC.flight = some f) (hk : f.k < f.plan.n) (hcell : f.cell < s.cfg.storageBytes) :
    exec f.op s = .next ((s.afterRead f.cell).setFlight .consumer
      (some { f with k := f.k + 1, out := f.out ++ [s.byteAt f.cell] })) := by
  rw [exec_read hr, phased_xfer (p := .consumer) hf rfl hk, readOpXfer, if_neg hp]
  simp [loadXfer, hcell]

/-- Settles O30. -/
theorem writeTransfersOneByte : Obligations.WriteTransfersOneByte := by
  intro s f v hw hf hk hcell hv
  exact ⟨_, exec_write_xfer hw hf hk hcell hv, wentOn_setFlight _ (by simp), ⟨rfl, rfl, rfl, rfl⟩, rfl,
    Memory.read?_write_same _ _ _, fun x hx => Memory.read?_write_other _ _ hx⟩

/-- Settles O31. -/
theorem readTransfersOneByte : Obligations.ReadTransfersOneByte := by
  intro s f v hop hf hk hcell hv
  have hr : movesReadCursor f.op = true ∧ f.op ≠ .peek := by
    obtain ⟨len, h⟩ | h := hop <;> exact h ▸ ⟨rfl, nofun⟩
  have hexec := exec_read_xfer hr.1 hr.2 hf hk hcell
  rw [Flight.cell, s.byteAt_of_written hv, s.afterRead_of_written hv] at hexec
  exact ⟨_, hexec, wentOn_setFlight _ (by simp), ⟨rfl, rfl, rfl, rfl⟩, rfl, rfl, rfl⟩

/-! ### Commits -/

/-- A write operation with no bytes left commits (R65). -/
theorem exec_write_commit {s : State} {f : Flight} (hw : writesCells f.op = true) (hf : s.portP.flight = some f)
    (hk : f.plan.n ≤ f.k) :
    exec f.op s =
      .next (((s.commitCursors f.plan).setFlight .producer none).respond .producer (countResponse f)) := by
  rw [exec_write hw, phased_commit (p := .producer) hf rfl hk]
  rfl

/-- A read operation with no bytes left commits; `PEEK`, which moves none, commits at once (R62, R65). -/
theorem exec_read_commit {s : State} {f : Flight} (hr : movesReadCursor f.op = true) (hf : s.portC.flight = some f)
    (hk : f.op = .peek ∨ f.plan.n ≤ f.k) :
    exec f.op s =
      .next (((s.commitCursors f.plan).setFlight .consumer none).respond .consumer (readOpResponse f.op f)) := by
  rw [exec_read hr]
  by_cases hlt : f.k < f.plan.n
  · rw [phased_xfer (p := .consumer) hf rfl hlt, readOpXfer, if_pos (hk.resolve_right (Nat.not_le.mpr hlt))]
    rfl
  · rw [phased_commit (p := .consumer) hf rfl (Nat.le_of_not_lt hlt)]
    rfl

/-- A commit moves the windows as R71 says. -/
theorem windowsMoved_commitCursors (s : State) (plan : Plan) : windowsMoved plan.ovw s (s.commitCursors plan) := by
  refine ⟨fun ho => ?_, fun ho hv => ?_, fun ho hv => ?_⟩
  · simp [ho]
  · simp [ho, hv, remember]
  · simp [ho, hv, remember, eq_comm]

/-- Settles O32. -/
theorem writeCommitPublishes : Obligations.WriteCommitPublishes := by
  intro s f hw hf hk
  exact ⟨_, exec_write_commit hw hf hk.ge, rfl, rfl, rfl, rfl, rfl, rfl, windowsMoved_commitCursors s f.plan,
    finishedFlight_respond _ (by simp)⟩

/-- Settles O33: each operation's response is its own. -/
theorem readCommitPublishes : Obligations.ReadCommitPublishes := by
  intro s f hr hf hk _
  have hcommit := exec_read_commit hr hf (hk.imp_right fun h => h.1.ge)
  refine ⟨_, _, hcommit, rfl, rfl, rfl, rfl, rfl, rfl, windowsMoved_commitCursors s f.plan,
    finishedFlight_respond _ (by simp), ?_, ?_, ?_⟩
  · intro len hop
    rw [hop, readOpResponse_get, getResponse]
  · intro hop
    obtain ⟨hn, hlen⟩ := hk.resolve_left (by simp [hop])
    rw [hop]
    refine ⟨fun h0 => ?_, fun b hb => ?_⟩
    · have hout : f.out = [] := List.eq_nil_of_length_eq_zero (by omega)
      rw [readOpResponse_getchar, getcharResponse, hout]
      rfl
    · have h1 : f.plan.n = 1 := by rw [← hn, ← hlen, hb]; rfl
      rw [readOpResponse_getchar, getcharResponse, hb, h1]
      rfl
  · intro hop
    rw [hop]
    refine ⟨fun h0 => ?_, fun hpos => ?_⟩
    · rw [readOpResponse_peek, peekResponse, if_pos h0]
      rfl
    · rw [readOpResponse_peek, peekResponse, if_neg hpos.ne']

/-! ### The direct read -/

/-- A violation is recorded under `assert` only (R227). -/
theorem violated_none_faults (s : State) (i : Instr) :
    (s.cfg.assertMode = .degrade → (s.violated none i).faults = s.faults) ∧
      (s.cfg.assertMode = .assert → .preconditionViolated i s.inited s.cap ∈ (s.violated none i).faults) := by
  refine ⟨fun hm => ?_, fun hm => ?_⟩
  · rw [State.violated, s.raiseAsserting_degrade _ hm]
  · rw [State.violated, s.raiseAsserting_assert _ hm]
    exact s.mem_raise_faults.mpr (.inl rfl)

theorem exec_rdmem_below {s : State} {x : Half} (h : s.canAccept .consumer (.rdmem x)) (hi : s.inited = true)
    (hx : x.toNat < s.cap.toNat) (hst : x.toNat < s.cfg.storageBytes) :
    exec (.rdmem x) s = .next (((s.accept .consumer).afterRead x.toNat).respond .consumer
      { r0 := 1, r1 := (s.byteAt x.toNat).setWidth 16, payload := [] }) := by
  rw [exec, execRdmem, accepting_eq (busy_of_idle h.1) h.2, if_pos ⟨hi, hx⟩]
  exact if_pos hst

theorem exec_rdmem_above {s : State} {x : Half} (h : s.canAccept .consumer (.rdmem x)) (hx : s.cap.toNat ≤ x.toNat) :
    exec (.rdmem x) s =
      .next (((s.accept .consumer).violated none (.rdmem x)).respond .consumer Response.zero) := by
  rw [exec, execRdmem, accepting_eq (busy_of_idle h.1) h.2]
  exact if_neg fun hin => Nat.not_lt.mpr hx hin.2

/-- Settles O36, below `cap` and at or above it. -/
theorem rdmemReadsOneCell : Obligations.RdmemReadsOneCell := by
  intro s x h hi hst
  refine ⟨fun hx => ?_, fun hx => ?_⟩
  · refine ⟨_, _, exec_rdmem_below h hi hx (hx.trans_le hst), ⟨rfl, rfl, rfl, rfl⟩, rfl, rfl,
      answeredAtOnce_respond _ (by simp), fun v hv => ⟨s.byteAt_of_written hv, ?_⟩⟩
    rw [(s.accept .consumer).afterRead_of_written hv]
    rfl
  · obtain ⟨hdegrade, hassert⟩ := violated_none_faults (s.accept .consumer) (.rdmem x)
    rw [State.accept_inited, State.accept_cap, hi] at hassert
    exact ⟨_, exec_rdmem_above h hx, by simp [sameRegisters], by simp, answeredAtOnce_respond _ (by simp), hdegrade,
      hassert⟩

end Sys2Proof.Machine
end

section
/-! SUPPORT. A phased operation run alone is its atomic reading (R62, R73, R290): its transfers are one run of stores or
reads, and its port is idle again at the end. -/

namespace Sys2Proof.Machine

/-! ### Repeated steps -/

theorem repeatExec_succ {i : Instr} {s t : State} (h : exec i s = .next t) (k : Nat) :
    repeatExec i (k + 1) s = repeatExec i k t := by
  rw [repeatExec, h]

theorem repeatExec_one {i : Instr} {s t : State} (h : exec i s = .next t) : repeatExec i 1 s = .next t := by
  rw [repeatExec_succ h, repeatExec]

/-- Freeing an idle port changes nothing. -/
theorem setFlight_none_of_idle {s : State} {p : Port} (h : (s.port p).flight = none) : s.setFlight p none = s := by
  have hport : { s.port p with flight := none } = s.port p := by rw [← h]
  rw [State.setFlight, hport]
  cases p <;> rfl

/-! ### Runs of transfers -/

/-- Every cell that a flight accesses exists (R50). -/
def Flight.InStorage (f : Flight) (s : State) : Prop :=
  ∀ j < f.plan.n, addr f.plan.base j f.plan.snap.cap.toNat < s.cfg.storageBytes

/-- From a cursor in range at most `cap` bytes stay in the storage (R50, R54). -/
theorem inStorage_of_base {f : Flight} {s : State} (hbase : f.plan.base.idx.toNat < f.plan.snap.cap.toNat)
    (hn : f.plan.n ≤ f.plan.snap.cap.toNat) (hst : f.plan.snap.cap.toNat ≤ s.cfg.storageBytes) : f.InStorage s :=
  fun _ hj => (addr_lt hbase (hj.trans_le hn)).trans_le hst

/-- The payload bytes a write has still to store (R64). -/
def Flight.unsent (f : Flight) : List Byte := (f.data.drop (f.plan.skip + f.k)).take (f.plan.n - f.k)

/-- The state after the remaining `XFER` steps of a write (R64). -/
def State.storeRest (s : State) (f : Flight) : State :=
  { s with mem := writeAll f.plan.base f.plan.snap.cap.toNat f.k f.unsent s.mem }

theorem storeRest_of_done (s : State) {f : Flight} (hk : f.k = f.plan.n) : s.storeRest f = s := by
  simp [State.storeRest, Flight.unsent, hk, writeAll]

/-- The remaining stores are the next one and the rest. -/
theorem storeRest_of_next (s : State) {f : Flight} {v : Byte} (hk : f.k < f.plan.n)
    (hv : f.data[f.plan.skip + f.k]? = some v) :
    s.storeRest f = (s.storeByte f.cell v).storeRest { f with k := f.k + 1 } := by
  obtain ⟨hlt, rfl⟩ := List.getElem?_eq_some_iff.mp hv
  have hunsent : f.unsent = f.data[f.plan.skip + f.k] :: ({ f with k := f.k + 1 } : Flight).unsent := by
    obtain ⟨m, hm⟩ := Nat.exists_eq_add_of_lt hk
    simp only [Flight.unsent, hm, List.drop_eq_getElem_cons hlt]
    rw [show f.k + m + 1 - f.k = m + 1 by omega, show f.k + m + 1 - (f.k + 1) = m by omega, List.take_succ_cons]
    rfl
  rw [State.storeRest, hunsent]
  rfl

/-- A write in flight, run to its end (R64, R65). -/
theorem repeatExec_write {i : Instr} (hw : writesCells i = true) {m : Nat} {f : Flight} {s : State} (hop : f.op = i)
    (hm : f.k + m = f.plan.n) (hbytes : f.plan.skip + f.plan.n ≤ f.data.length) (hcells : f.InStorage s) :
    repeatExec i (m + 1) (s.setFlight .producer (some f)) =
      .next ((((s.storeRest f).commitCursors f.plan).setFlight .producer none).respond .producer
        (countResponse f)) := by
  subst hop
  induction m generalizing f s with
  | zero =>
    rw [repeatExec_one (exec_write_commit hw rfl (by omega)), storeRest_of_done s hm]
    rfl
  | succ m ih =>
    have hlt : f.plan.skip + f.k < f.data.length := by omega
    have hv := List.getElem?_eq_getElem hlt
    have hstep := exec_write_xfer (s := s.setFlight .producer (some f)) hw rfl (by omega) (hcells f.k (by omega)) hv
    rw [repeatExec_succ hstep, storeRest_of_next s (by omega) hv]
    exact ih (f := { f with k := f.k + 1 }) (s := s.storeByte f.cell _) (by simp only; omega) hbytes hcells hw

/-- A read in flight that has read its last bytes (R64). -/
def Flight.withBytes (f : Flight) (bs : List Byte) : Flight := { f with k := f.plan.n, out := f.out ++ bs }

/-- A read in flight, run to its end (R64, R65). -/
theorem repeatExec_read {i : Instr} (hr : movesReadCursor i = true) (hp : i ≠ .peek) {m : Nat} {f : Flight} {s : State}
    (hop : f.op = i) (hm : f.k + m = f.plan.n) (hcells : f.InStorage s) :
    repeatExec i (m + 1) (s.setFlight .consumer (some f)) =
      .next ((((afterReadAll f.plan.base f.plan.snap.cap.toNat f.k m s).commitCursors f.plan).setFlight .consumer
        none).respond .consumer
          (readOpResponse i (f.withBytes (readAll f.plan.base f.plan.snap.cap.toNat f.k m s)))) := by
  subst hop
  induction m generalizing f s with
  | zero =>
    rw [repeatExec_one (exec_read_commit hr rfl (.inr (by omega))), readAll, Flight.withBytes,
      List.append_nil, ← hm]
    rfl
  | succ m ih =>
    have hstep := exec_read_xfer (s := s.setFlight .consumer (some f)) hr hp rfl (by omega) (hcells f.k (by omega))
    rw [readAll, afterReadAll, Flight.withBytes, List.append_cons, repeatExec_succ hstep]
    exact ih (f := { f with k := f.k + 1, out := f.out ++ [s.byteAt f.cell] }) (s := s.afterRead f.cell)
      (by simp only; omega) hcells hr hp

/-! ### Writes from their `SAMPLE` on -/

/-- The plan of a write starts at the write cursor it saw (R166, R172). -/
theorem writeOpPlan_base (i : Instr) (v : Snapshot) : (writeOpPlan i v).snap = v ∧ (writeOpPlan i v).base = v.wc := by
  cases i <;> exact ⟨rfl, rfl⟩

/-- Whatever cursors it saw, a write stores at most `cap` bytes, each one of its payload (R59, R97). -/
theorem writeOpPlan_count {i : Instr} {v : Snapshot} {d : List Byte} (hw : writesCells i = true)
    (hpos : 0 < v.cap.toNat) (hd : d.length = payloadLen i) :
    (writeOpPlan i v).n ≤ v.cap.toNat ∧
      (writeOpPlan i v).skip + (writeOpPlan i v).n ≤ (writeOpData i d).length := by
  cases i with
  | put len =>
    have hn : putCount len v ≤ len.toNat ∧ putCount len v ≤ freeLen v.wc v.rc v.cap.toNat :=
      ⟨Nat.min_le_left _ _, Nat.min_le_right _ _⟩
    have hfree := freeLen_le v.wc v.rc v.cap.toNat
    simp only [payloadLen] at hd
    simp only [writeOpPlan, putPlan, writePlan, writeOpData]
    omega
  | putForce len =>
    have hn : putForceCount len v ≤ len.toNat ∧ putForceCount len v ≤ v.cap.toNat :=
      ⟨Nat.min_le_left _ _, Nat.min_le_right _ _⟩
    simp only [payloadLen] at hd
    simp only [writeOpPlan, putForcePlan, forcePlan, writeOpData]
    omega
  | putchar b =>
    have hn : putcharCount v ≤ 1 := by unfold putcharCount; split <;> simp
    simp only [writeOpPlan, putcharPlan, writePlan, writeOpData, List.length_singleton]
    omega
  | putcharForce b =>
    simp only [writeOpPlan, putcharForcePlan, forcePlan, writeOpData, List.length_singleton]
    omega
  | _ => cases hw

/-- A write operation run alone from an idle port (R62, R73, R290). -/
theorem repeatExec_write_alone {i : Instr} {s : State} (hw : writesCells i = true) (h : s.canAccept .producer i)
    (hi : s.inited = true) (hwc : s.wc.idx.toNat < s.cap.toNat) (hst : s.cap.toNat ≤ s.cfg.storageBytes)
    (hrace : writeOpRace i i s = none) :
    repeatExec i ((writeFlight i s).plan.n + 2) s =
      .next ((((s.accept .producer).sampled .producer (isForceWrite i)).writeThrough (writeFlight i s).plan
        (writeFlight i s).data).respond .producer (countResponse (writeFlight i s))) := by
  have hidle : s.portP.flight = none := h.1
  obtain ⟨hsnap, hbase⟩ := writeOpPlan_base i (s.snapshot .producer (isForceWrite i))
  obtain ⟨hn, hbytes⟩ := writeOpPlan_count (v := s.snapshot .producer (isForceWrite i)) hw
    (by rw [State.snapshot_cap]; omega) h.2
  have hcells : (writeFlight i s).InStorage ((s.accept .producer).sampled .producer (isForceWrite i)) := by
    refine inStorage_of_base ?_ ?_ ?_ <;>
      simp only [writeFlight, freshFlight, hsnap, hbase, State.snapshot_cap, State.snapshot_producer_wc]
    · exact hwc
    · rwa [State.snapshot_cap] at hn
    · exact hst
  rw [repeatExec_succ (exec_write_sample hw h hi hrace),
    repeatExec_write hw rfl (Nat.zero_add _) hbytes hcells, setFlight_none_of_idle]
  · rfl
  · simp [State.storeRest, hidle]

/-- Settles O37. -/
theorem bulkWritesRunAsAtomicReading : Obligations.BulkWritesRunAsAtomicReading := by
  intro s len hi hwc hst
  refine ⟨fun h => repeatExec_write_alone rfl h hi hwc hst rfl, fun h hC => ?_⟩
  have hcount : (writeFlight (.putForce len) s).plan.n = min len.toNat s.cap.toNat := by
    rw [← s.snapshot_cap .producer true]
    rfl
  rw [← hcount]
  exact repeatExec_write_alone rfl h hi hwc hst (writeOpRace_of_idle _ hC)

/-- Settles O38. -/
theorem singleByteWritesRunAsAtomicReading : Obligations.SingleByteWritesRunAsAtomicReading := by
  intro s b hi hwc hst
  exact ⟨fun h => repeatExec_write_alone rfl h hi hwc hst rfl,
    fun h hC => repeatExec_write_alone rfl h hi hwc hst (writeOpRace_of_idle _ hC)⟩

/-! ### Reads from their `SAMPLE` on -/

/-- No two cursors in range are more than `cap` bytes apart (R31). -/
theorem dataLen_le_cap {w : Cursor} {cap : Nat} (hw : w.idx.toNat < cap) (r : Cursor) : dataLen w r cap ≤ cap := by
  rw [dataLen_eq]
  split_ifs <;> omega

theorem getcharCount_le_one (v : Snapshot) : getcharCount v ≤ 1 := by
  unfold getcharCount
  split <;> simp

/-- Whatever cursors it saw, a read takes at most `cap` bytes (R59, R193, R210). -/
theorem readOpCount_le_cap (i : Instr) {v : Snapshot} (hw : v.wc.idx.toNat < v.cap.toNat) :
    readOpCount i v ≤ v.cap.toNat := by
  have hd := dataLen_le_cap hw v.rc
  have hget (len : Half) : getCount len v ≤ v.cap.toNat := (Nat.min_le_right _ _).trans hd
  have hgetchar : getcharCount v ≤ v.cap.toNat := (getcharCount_le_one v).trans (Nat.zero_lt_of_lt hw)
  have hpeek : peekCount v ≤ v.cap.toNat := (Nat.min_le_left _ _).trans hd
  cases i with
  | get len => exact hget len
  | getchar => exact hgetchar
  | _ => exact hpeek

/-- Reads leave every port as it was (R51). -/
theorem afterReadAll_port (c : Cursor) (cap k n : Nat) (s : State) (q : Port) :
    (afterReadAll c cap k n s).port q = s.port q := by
  induction n generalizing k s with
  | zero => rfl
  | succ n ih => rw [afterReadAll, ih, State.afterRead_port]

/-- `GET` or `GETCHAR` run alone from an idle port (R62, R73, R290). -/
theorem repeatExec_read_alone {i : Instr} {s : State} (hr : movesReadCursor i = true) (hp : i ≠ .peek)
    (h : s.canAccept .consumer i) (hi : s.inited = true) (hrc : s.rc.idx.toNat < s.cap.toNat)
    (hst : s.cap.toNat ≤ s.cfg.storageBytes) (hwc : ∀ w ∈ s.wc :: s.staleWc, w.idx.toNat < s.cap.toNat)
    (hrace : readRace i s = none) :
    repeatExec i ((readFlight i s).plan.n + 2) s =
      .next ((((s.accept .consumer).sampled .consumer false).readThrough (readFlight i s).plan).respond .consumer
        (readOpResponse i ((readFlight i s).withBytes
          (((s.accept .consumer).sampled .consumer false).readBytes (readFlight i s).plan)))) := by
  have hn := readOpCount_le_cap i (v := s.snapshot .consumer false)
    (by rw [State.snapshot_cap]; exact hwc _ (snapshot_wc_visible s false).1)
  have hcells : (readFlight i s).InStorage ((s.accept .consumer).sampled .consumer false) := by
    refine inStorage_of_base ?_ hn ?_ <;>
      simp only [readFlight, freshFlight, readPlan, State.snapshot_cap, State.snapshot_consumer_rc]
    · exact hrc
    · exact hst
  rw [repeatExec_succ (exec_read_sample hr h hi hrace),
    repeatExec_read hr hp rfl (Nat.zero_add _) hcells, setFlight_none_of_idle]
  · rfl
  · rw [State.commitCursors_port, afterReadAll_port]
    simpa using h.1

/-- The response of a `GETCHAR` that has read the bytes of its plan (R210). -/
theorem getcharResponse_withBytes {f : Flight} (t : State) (hn : f.plan.n ≤ 1) (hout : f.out = []) :
    getcharResponse (f.withBytes (t.readBytes f.plan)) =
      if f.plan.n = 0 then Response.zero
      else { r0 := 1, r1 := (t.byteAt (addr f.plan.base 0 f.plan.snap.cap.toNat)).setWidth 16, payload := [] } := by
  rw [getcharResponse, Flight.withBytes, hout, List.nil_append, State.readBytes]
  obtain h0 | h1 := Nat.le_one_iff_eq_zero_or_eq_one.mp hn
  · rw [h0]
    rfl
  · rw [h1]
    rfl

/-- Settles O39. -/
theorem readsRunAsAtomicReading : Obligations.ReadsRunAsAtomicReading := by
  intro s hi hrc hst hwc hforce
  have hrace (i : Instr) : readRace i s = none := readRace_of_noForceWrite i hforce
  refine ⟨fun len h => repeatExec_read_alone rfl nofun h hi hrc hst hwc (hrace _), fun h => ?_, fun h => ?_⟩
  · have hn : (readFlight .getchar s).plan.n ≤ 1 := getcharCount_le_one _
    refine (repeatExec_read_alone (i := .getchar) rfl nofun h hi hrc hst hwc (hrace _)).trans ?_
    rw [readOpResponse_getchar, getcharResponse_withBytes _ hn rfl]
    rfl
  · have hcommit := exec_read_commit (f := readFlight .peek s)
      (s := ((s.accept .consumer).sampled .consumer false).setFlight .consumer (some (readFlight .peek s))) rfl rfl
      (.inl rfl)
    rw [repeatExec_succ (exec_read_sample rfl h hi (hrace _))]
    refine (repeatExec_one hcommit).trans ?_
    rw [← setFlight_none_of_idle (s := (atomicPeek (s.accept .consumer)).1) (p := .consumer) h.1]
    rfl

end Sys2Proof.Machine
end

section
/-! SUPPORT. The sequencer (R28, R61, R67, R261), the separation of the ports (R77, R92), and the progress of an operation
in flight (R66, R77). -/

namespace Sys2Proof.Machine

/-! ### Which instruction steps -/

/-- An operation in flight goes on (R64, R65). -/
theorem fetch_of_flight {s : State} {p : Port} {f : Flight} (h : (s.port p).flight = some f) :
    fetch p s = .exec f.op (s.setTurn p) := by
  simp [fetch, h]

/-- A command of the port's own agent that decodes runs (R61, R104). -/
theorem fetch_of_decoded {s : State} {p : Port} {c : Command} {more : List Command} {i : Instr}
    (hidle : (s.port p).flight = none) (hpending : (s.port p).pending = c :: more) (hwait : s.agentWaits p = false)
    (hagent : c.agent = s.cfg.agentOf p) (hdecode : decode p c.word = .ok i) :
    fetch p s = .exec i (s.setTurn p) := by
  simp [fetch, hidle, hpending, hwait, hagent, hdecode]

/-- The step of the port scheduled next (R67). -/
theorem step_of_sched {s : State} {p : Port} {rest : List Event} (h : s.sched = .port p :: rest) :
    step s = (fetch p { s with sched := rest }).outcome := by
  rw [step_eq_outcome, select, h]

/-- Settles O49. -/
theorem stepContinuesOperationInFlight : Obligations.StepContinuesOperationInFlight := by
  intro s p rest f hs hf
  rw [step_of_sched hs, fetch_of_flight (s := { s with sched := rest }) hf]
  rfl

/-- Settles O48. -/
theorem stepRunsDecodedInstruction : Obligations.StepRunsDecodedInstruction := by
  intro s p rest c more i hs hidle hpending hwait hagent hdecode
  rw [step_of_sched hs, fetch_of_decoded (s := { s with sched := rest }) hidle hpending hwait hagent hdecode]
  rfl

/-- A free choice of port leaves none out (R67). -/
theorem mem_portsFrom (n : Nat) (p : Port) : p ∈ portsFrom n := by
  unfold portsFrom
  split <;> cases p <;> decide

/-- The free choice finds a port exactly where one has an enabled step (R67). -/
theorem freeTurn_eq_none_iff {s : State} : s.freeTurn = none ↔ ∀ p, s.enabled p = false := by
  simp [State.freeTurn, mem_portsFrom]

/-- Settles O52, by the free choice of a port. -/
theorem unscheduledStepIsSomeEnabledPort : Obligations.UnscheduledStepIsSomeEnabledPort := by
  intro s hs
  refine ⟨fun hnone => ?_, fun hsome => ?_⟩
  · simp [step, select, hs, freeTurn_eq_none_iff.mpr hnone]
  · cases hp : s.freeTurn with
    | none =>
      obtain ⟨p, hen⟩ := hsome
      rw [freeTurn_eq_none_iff.mp hp p] at hen
      cases hen
    | some p =>
      refine ⟨p, List.find?_some hp, ?_⟩
      rw [step_of_sched (s := { s with sched := [.port p], draws := s.draws + 1 }) rfl, step_eq_outcome, select, hs]
      simp only [hp]

/-! ### Other ports -/

/-- Every instruction is of one family, and the family has its port (R92). -/
theorem portOf_cases (s : State) (i : Instr) :
    (isQuery i = true ∧ s.portOf i = s.turn) ∨ (isLifecycle i = true ∧ s.portOf i = .host) ∨
      (writesCells i = true ∧ s.portOf i = .producer) ∨
      ((movesReadCursor i = true ∨ ∃ x, i = .rdmem x) ∧ s.portOf i = .consumer) := by
  cases i with
  | status | dataLen | freeLen => exact .inl ⟨rfl, rfl⟩
  | init | reset | create | destroy => exact .inr (.inl ⟨rfl, rfl⟩)
  | put | putForce | putchar | putcharForce => exact .inr (.inr (.inl ⟨rfl, rfl⟩))
  | get | getchar | peek => exact .inr (.inr (.inr ⟨.inl rfl, rfl⟩))
  | rdmem x => exact .inr (.inr (.inr ⟨.inr ⟨x, rfl⟩, rfl⟩))

/-- Settles O59, family by family from the frames. -/
theorem otherPortsUntouched : Obligations.OtherPortsUntouched := by
  intro s t i p h hp
  obtain ⟨hi, hport⟩ | ⟨hi, hport⟩ | ⟨hi, hport⟩ | ⟨hi, hport⟩ := portOf_cases s i <;> rw [hport] at hp
  · obtain ⟨-, -, -, -, -, hports, -⟩ := queryFrame s t i hi h
    exact (hports p).2 hp
  · obtain ⟨-, -, -, hP, hC, -⟩ := lifecycleFrame s t i hi h
    cases p with
    | producer => exact hP
    | consumer => exact hC
    | host => exact absurd rfl hp
  · obtain ⟨-, -, -, hC, hH, -⟩ := writeFrame s t i hi h
    cases p with
    | producer => exact absurd rfl hp
    | consumer => exact hC
    | host => exact hH
  · obtain ⟨-, -, -, -, hP, hH, -⟩ := readFrame s t i hi h
    cases p with
    | producer => exact hP
    | consumer => exact absurd rfl hp
    | host => exact hH

/-! ### Progress -/

/-- A step that moves one more byte of the operation in flight `f` on port `p`, or commits it with one response. -/
abbrev ProgressOf (s : State) (p : Port) (f : Flight) (t : State) : Prop :=
  (f.k < f.plan.n ∧ ∃ g, (t.port p).flight = some g ∧ g.op = f.op ∧ g.plan = f.plan ∧ g.k = f.k + 1) ∨
    ((t.port p).flight = none ∧ (f.op = .peek ∨ f.k = f.plan.n) ∧
      ∃ r, (t.port p).responses = (s.port p).responses ++ [r])

theorem progressOf_wentOn {s t : State} {p : Port} {f g : Flight} (h : wentOn p g s t) (hlt : f.k < f.plan.n)
    (hop : g.op = f.op) (hplan : g.plan = f.plan) (hk : g.k = f.k + 1) : ProgressOf s p f t :=
  .inl ⟨hlt, g, by rw [h.1], hop, hplan, hk⟩

theorem progressOf_finishedFlight {s t : State} {p : Port} {f : Flight} {r : Response} (h : finishedFlight p r s t)
    (hend : f.op = .peek ∨ f.k = f.plan.n) : ProgressOf s p f t :=
  .inr ⟨by rw [h.1], hend, r, by rw [h.1]⟩

/-- A write in flight has a cell and a payload byte for each byte left (R64, R97). -/
theorem write_progresses {s : State} {f : Flight} (hs : Running s) (hf : s.portP.flight = some f) :
    ∃ t, exec f.op s = .next t ∧ ProgressOf s .producer f t := by
  obtain ⟨-, -, hst, -⟩ := hs.legal
  obtain ⟨-, hw, hbase, hsnap, -, hn, hk, hbytes, -, -⟩ := hs.flightP f hf
  obtain hlt | hdone := Nat.lt_or_eq_of_le hk
  · have hcell : f.cell < s.cfg.storageBytes := by
      rw [Flight.cell, hbase, hsnap]
      exact (addr_lt hs.order.wIdx (by omega)).trans_le hst
    have hv := List.getElem?_eq_getElem (show f.plan.skip + f.k < f.data.length by omega)
    exact ⟨_, exec_write_xfer hw hf hlt hcell hv,
      progressOf_wentOn (wentOn_setFlight _ (by simp)) hlt rfl rfl rfl⟩
  · exact ⟨_, exec_write_commit hw hf hdone.ge,
      progressOf_finishedFlight (finishedFlight_respond _ (by simp)) (.inr hdone)⟩

/-- A read in flight has a cell for each byte left (R64); `PEEK` has its commit (R62). -/
theorem read_progresses {s : State} {f : Flight} (hs : Running s) (hf : s.portC.flight = some f) :
    ∃ t, exec f.op s = .next t ∧ ProgressOf s .consumer f t := by
  obtain ⟨-, -, hst, -⟩ := hs.legal
  obtain ⟨-, hr, hbase, hsnap, -, -, -, hk, hfit⟩ := hs.flightC f hf
  by_cases hend : f.op = .peek ∨ f.k = f.plan.n
  · exact ⟨_, exec_read_commit hr hf (hend.imp_right Eq.ge),
      progressOf_finishedFlight (finishedFlight_respond _ (by simp)) hend⟩
  · obtain ⟨hp, hne⟩ := not_or.mp hend
    have hlt : f.k < f.plan.n := Nat.lt_of_le_of_ne hk hne
    have hle := (hfit _ (.head _)).trans hs.order.dataLen_le
    have hcell : f.cell < s.cfg.storageBytes := by
      rw [Flight.cell, hbase, hsnap]
      exact (addr_lt hs.order.rIdx (by omega)).trans_le hst
    exact ⟨_, exec_read_xfer hr hp hf hlt hcell,
      progressOf_wentOn (wentOn_setFlight _ (by simp)) hlt rfl rfl rfl⟩

/-- Settles O60: port H has nothing in flight, and the other two go on. -/
theorem operationInFlightProgresses : Obligations.OperationInFlightProgresses := by
  rintro s p f ⟨-, -, hq⟩ hr hf
  have hq := hq hr
  cases p with
  | producer => exact write_progresses (running_of_flightP hq hf) hf
  | consumer => exact read_progresses (running_of_flightC hq hf) hf
  | host =>
    obtain ⟨-, -, -, -, -, -, -, hH⟩ := hq
    rw [State.port_host, hH] at hf
    cases hf

end Sys2Proof.Machine
end

section
/-! SUPPORT. The command word and its decoder (R94, R98, R102, R104): a word decodes to the one instruction it is the word
of, and is illegal by its own fields or by its port. -/

namespace Sys2Proof

/-! ### Formats and rows -/

theorem formatN_eq_ok_iff {i j : Instr} {arg : Half} {byte : Byte} :
    formatN i arg byte = .ok j ↔ arg = 0 ∧ byte = 0 ∧ i = j := by
  unfold formatN
  split_ifs <;> simp_all

theorem formatA_eq_ok_iff {i : Half → Instr} {j : Instr} {arg : Half} {byte : Byte} :
    formatA i arg byte = .ok j ↔ byte = 0 ∧ i arg = j := by
  unfold formatA
  split_ifs <;> simp_all

theorem formatB_eq_ok_iff {i : Byte → Instr} {j : Instr} {arg : Half} {byte : Byte} :
    formatB i arg byte = .ok j ↔ arg = 0 ∧ i byte = j := by
  unfold formatB
  split_ifs <;> simp_all

/-- The row of an instruction's opcode gives the instruction back from its operand fields (R98). -/
theorem decodeRow_opcode (i : Instr) : decodeRow (opcode i).toNat (argOf i) (byteOf i) = .ok i := by
  cases i with
  | init | create | put | putForce | get | rdmem => exact formatA_eq_ok_iff.mpr ⟨rfl, rfl⟩
  | putchar | putcharForce => exact formatB_eq_ok_iff.mpr ⟨rfl, rfl⟩
  | reset | destroy | status | dataLen | freeLen | getchar | peek => exact formatN_eq_ok_iff.mpr ⟨rfl, rfl, rfl⟩

/-- What a row decodes to has the opcode of the row and the operand fields of the word (R95, R98). -/
theorem fields_of_decodeRow {n : Nat} {arg : Half} {byte : Byte} {i : Instr} (h : decodeRow n arg byte = .ok i) :
    (opcode i).toNat = n ∧ argOf i = arg ∧ byteOf i = byte := by
  unfold decodeRow at h
  split at h <;>
    simp only [formatN_eq_ok_iff, formatA_eq_ok_iff, formatB_eq_ok_iff, reduceCtorEq] at h
  all_goals simp [← h.2, h.1, opcode, argOf, byteOf]

/-- A row decodes to nothing exactly where the opcode has no row, or a field its format does not use is not 0
(R95, R98, R102). -/
theorem decodeRow_not_ok_iff {n : Nat} (h : n < 16) (arg : Half) (byte : Byte) :
    (¬∃ i, decodeRow n arg byte = .ok i) ↔
      n = 0 ∨ (arg ≠ 0 ∧ n ∈ [2, 4, 5, 6, 7, 10, 11, 13, 14]) ∨
        (byte ≠ 0 ∧ n ∈ [1, 2, 3, 4, 5, 6, 7, 8, 9, 12, 13, 14, 15]) := by
  interval_cases n <;>
    simp [decodeRow, formatN_eq_ok_iff, formatA_eq_ok_iff, formatB_eq_ok_iff, -not_and, not_and_or]

/-! ### The word and its instruction -/

/-- A word whose `RSV` is 0 is assembled from its other fields (R94). -/
theorem assemble_fields {w : CmdWord} (h : fieldRsv w = 0) :
    assemble (fieldOpc w) (fieldArg w) (fieldByte w) = w := by
  unfold assemble fieldOpc fieldArg fieldByte
  rw [← BitVec.ofNat_eq_ofNat, ← h, fieldRsv, BitVec.extractLsb'_append_extractLsb'_eq_extractLsb' (by rfl),
    BitVec.extractLsb'_append_extractLsb'_eq_extractLsb' (by rfl),
    BitVec.extractLsb'_append_extractLsb'_eq_extractLsb' (by rfl)]
  exact BitVec.extractLsb'_eq_self

/-- The word part of the decoder undoes the encoder, and nothing else does (R98, R104). -/
theorem decodeWord_eq_ok_iff {w : CmdWord} {i : Instr} : decodeWord w = .ok i ↔ encode i = w := by
  refine ⟨fun h => ?_, fun h => ?_⟩
  · unfold decodeWord at h
    split_ifs at h with hrsv
    obtain ⟨hopc, harg, hbyte⟩ := fields_of_decodeRow h
    rw [encode, BitVec.eq_of_toNat_eq hopc, harg, hbyte]
    exact assemble_fields (not_not.mp hrsv)
  · subst h
    simp [decodeWord, encode, decodeRow_opcode]

/-- A port decodes a word to an instruction exactly when it is the instruction's word and the port accepts it
(R92, R104). -/
theorem decode_eq_ok_iff {p : Port} {w : CmdWord} {i : Instr} :
    decode p w = .ok i ↔ encode i = w ∧ accepts p i = true := by
  rw [← decodeWord_eq_ok_iff]
  unfold decode
  cases decodeWord w with
  | illegal why => simp
  | ok j =>
    simp only [ite_eq_iff, Decoded.ok.injEq, reduceCtorEq, and_false, or_false]
    rw [and_comm]
    exact and_congr_right fun hj => by rw [hj]

/-- Settles O1: the word part gives the instruction back, and the port's test is all that is left. -/
theorem decodeOfEncode : Obligations.DecodeOfEncode := by
  intro p i
  rw [decode, decodeWord_eq_ok_iff.mpr rfl]

/-- Settles O2. -/
theorem encodeOfDecode : Obligations.EncodeOfDecode := fun _ _ _ => decode_eq_ok_iff.mp

/-- Settles O4: each word is the word of its instruction, at a port that accepts it. -/
theorem exampleWordsDecode : Obligations.ExampleWordsDecode := by
  simp only [Obligations.ExampleWordsDecode, decode_eq_ok_iff]
  decide

/-! ### Illegal words -/

/-- A word has no instruction exactly by its own fields (R102). -/
theorem decodeWord_not_ok_iff (w : CmdWord) :
    (¬∃ i, decodeWord w = .ok i) ↔
      fieldOpc w = 0 ∨ fieldRsv w ≠ 0 ∨
        (fieldArg w ≠ 0 ∧ (fieldOpc w).toNat ∈ [2, 4, 5, 6, 7, 10, 11, 13, 14]) ∨
        (fieldByte w ≠ 0 ∧ (fieldOpc w).toNat ∈ [1, 2, 3, 4, 5, 6, 7, 8, 9, 12, 13, 14, 15]) := by
  have hopc : fieldOpc w = 0 ↔ (fieldOpc w).toNat = 0 := BitVec.toNat_inj.symm
  unfold decodeWord
  split_ifs with hrsv
  · simp [show ¬fieldRsv w = 0#4 from hrsv]
  · rw [hopc, or_iff_right hrsv]
    exact decodeRow_not_ok_iff (fieldOpc w).isLt _ _

/-- The ports that refuse an instruction, by its opcode (R92, R98). -/
theorem accepts_eq_false_iff (p : Port) (i : Instr) :
    accepts p i = false ↔
      (p ≠ .host ∧ (opcode i).toNat ∈ [1, 2, 3, 4]) ∨ (p ≠ .producer ∧ (opcode i).toNat ∈ [8, 9, 10, 11]) ∨
        (p ≠ .consumer ∧ (opcode i).toNat ∈ [12, 13, 14, 15]) := by
  cases p <;> cases i <;> exact decide_eq_decide.mp rfl

/-- Settles O3: a word is illegal by its own fields, or it has an instruction that the port does not accept. -/
theorem illegalExactlyAsListed : Obligations.IllegalExactlyAsListed := by
  intro p w
  have hfields := decodeWord_not_ok_iff w
  cases h : decodeWord w with
  | illegal why =>
    have hlisted := hfields.mp (by simp [h])
    exact iff_of_true ⟨why, by simp [decode, h]⟩ (hlisted.imp_right (·.imp_right (·.imp_right .inl)))
  | ok i =>
    have hlisted := mt hfields.mpr (by simp [h])
    simp only [not_or] at hlisted
    obtain ⟨hopc, hrsv, harg, hbyte⟩ := hlisted
    have hi : opcode i = fieldOpc w := by
      rw [← decodeWord_eq_ok_iff.mp h]
      exact (fieldOpc_assemble _ _ _).symm
    rw [or_iff_right hopc, or_iff_right hrsv, or_iff_right harg, or_iff_right hbyte, ← hi,
      ← accepts_eq_false_iff, decode, h]
    cases hp : accepts p i <;> simp [hp]

end Sys2Proof
end

section
/-! SUPPORT. Commands that no instruction runs: illegal ones, those with a payload of the wrong length, and a second
agent's (R97, R102, R229, R231, R243). -/

namespace Sys2Proof.Machine

/-- A command of the port's own agent that does not decode is illegal there (R102, R104). -/
theorem fetch_of_illegal {s : State} {p : Port} {c : Command} {more : List Command} {why : Illegal}
    (hidle : (s.port p).flight = none) (hpending : (s.port p).pending = c :: more) (hwait : s.agentWaits p = false)
    (hagent : c.agent = s.cfg.agentOf p) (hdecode : decode p c.word = .illegal why) :
    fetch p s = .done (illegalStep p c (s.setTurn p)) := by
  simp [fetch, hidle, hpending, hwait, hagent, hdecode]

/-- A second agent's command is refused before anything else about it is looked at (R243). -/
theorem fetch_of_foreign {s : State} {p : Port} {c : Command} {more : List Command}
    (hidle : (s.port p).flight = none) (hpending : (s.port p).pending = c :: more) (hwait : s.agentWaits p = false)
    (hagent : c.agent ≠ s.cfg.agentOf p) : fetch p s = .done (.refused (.extraAgent p)) := by
  simp [fetch, hidle, hpending, hwait, hagent]

/-- The step of the port scheduled next makes an illegal command an `illegalStep` (R67, R102). -/
theorem step_of_illegal {s : State} {p : Port} {rest : List Event} {c : Command} {more : List Command} {why : Illegal}
    (hs : s.sched = .port p :: rest) (hidle : (s.port p).flight = none) (hpending : (s.port p).pending = c :: more)
    (hwait : s.agentWaits p = false) (hagent : c.agent = s.cfg.agentOf p) (hdecode : decode p c.word = .illegal why) :
    step s = illegalStep p c { s with sched := rest, turn := p } := by
  rw [step_of_sched hs, fetch_of_illegal (s := { s with sched := rest }) hidle hpending hwait hagent hdecode]
  rfl

/-- An illegal command whose payload passes the first test is the no-op of R229. -/
theorem illegalStep_eq {p : Port} {c : Command} {s : State}
    (hlen : carriesPayload c.word = true → c.payload.length = (fieldArg c.word).toNat) :
    illegalStep p c s =
      .next (((s.accept p).raiseAsserting (.illegalCommand p c.word)).respond p Response.zero) := by
  simpa [illegalStep] using hlen

/-- An illegal word with a payload opcode is refused for its payload first (R231). -/
theorem illegalStep_malformed {p : Port} {c : Command} {s : State} (hopc : carriesPayload c.word = true)
    (hlen : c.payload.length ≠ (fieldArg c.word).toNat) :
    illegalStep p c s = .refused (.malformedPayload p c.word c.payload.length) := by
  simp [illegalStep, hopc, hlen]

/-- A violation is recorded under `assert` only (R227, R229). -/
theorem raiseAsserting_faults (s : State) (f : RecordedFault) :
    (s.cfg.assertMode = .degrade → (s.raiseAsserting f).faults = s.faults) ∧
      (s.cfg.assertMode = .assert → f ∈ (s.raiseAsserting f).faults) := by
  refine ⟨fun hm => ?_, fun hm => ?_⟩
  · rw [s.raiseAsserting_degrade _ hm]
  · rw [s.raiseAsserting_assert _ hm]
    exact s.mem_raise_faults.mpr (.inl rfl)

/-- Settles O50: accepting, recording and answering touch no register and no cell. -/
theorem illegalCommandDoesNothing : Obligations.IllegalCommandDoesNothing := by
  intro s p rest c more why hs hidle hpending hwait hagent hdecode hlen
  rw [step_of_illegal hs hidle hpending hwait hagent hdecode, illegalStep_eq hlen]
  obtain ⟨hdegrade, hassert⟩ :=
    raiseAsserting_faults ({ s with sched := rest, turn := p }.accept p) (.illegalCommand p c.word)
  refine ⟨_, rfl, ?_, ?_, answeredAtOnce_respond Response.zero fun q => ?_, hdegrade, hassert⟩
  · simp [sameRegisters]
  · simp
  · rw [State.raiseAsserting_port]
    rfl

/-- On an idle port every instruction begins by accepting its command (R61, R62). -/
theorem exec_of_idle {s : State} {i : Instr} (hidle : (s.port (s.portOf i)).flight = none) :
    ∃ run, exec i s = accepting (s.portOf i) i s run := by
  obtain ⟨hi, hport⟩ | ⟨hi, hport⟩ | ⟨hi, hport⟩ | ⟨hi | ⟨x, rfl⟩, hport⟩ := portOf_cases s i <;> rw [hport] at hidle ⊢
  · exact ⟨_, by rw [exec_query hi, query]⟩
  · cases i with
    | init => exact ⟨_, by rw [exec, execInit, bindStorage]⟩
    | create => exact ⟨_, by rw [exec, execCreate, bindStorage]⟩
    | reset => exact ⟨_, by rw [exec, execReset]⟩
    | destroy => exact ⟨_, by rw [exec, execDestroy]⟩
    | _ => cases hi
  · exact ⟨_, by rw [exec_write hi, phased_idle hidle]⟩
  · exact ⟨_, by rw [exec_read hi, phased_idle hidle]⟩
  · exact ⟨_, by rw [exec, execRdmem]⟩

/-- A payload that has not the length the command says is refused (R97, R231). -/
theorem exec_malformed {s : State} {i : Instr} (hidle : (s.port (s.portOf i)).flight = none)
    (hlen : (s.presented (s.portOf i)).length ≠ payloadLen i) :
    exec i s = .refused (.malformedPayload (s.portOf i) (encode i) (s.presented (s.portOf i)).length) := by
  obtain ⟨run, hrun⟩ := exec_of_idle hidle
  rw [hrun]
  simp [accepting, busy_of_idle hidle, hlen]

/-- Only `PUT` and `PUT_FORCE` carry a payload (R97). -/
theorem payloadLen_eq_zero {i : Instr} (h : ∀ len, i ≠ .put len ∧ i ≠ .putForce len) : payloadLen i = 0 := by
  cases i with
  | put len => exact absurd rfl (h len).1
  | putForce len => exact absurd rfl (h len).2
  | _ => rfl

/-- Settles O51: legal words by `exec_malformed`, the others by what the port makes of them. -/
theorem malformedAndForeignCommandsRefused : Obligations.MalformedAndForeignCommandsRefused := by
  refine ⟨?payload, ?noPayload, ?illegal, ?foreign⟩
  case payload =>
    intro s len i hi hidle hlen
    obtain rfl | rfl := hi <;> exact exec_malformed hidle hlen
  case noPayload =>
    intro s i hi hidle hsome
    exact exec_malformed hidle (by simpa [payloadLen_eq_zero hi] using hsome)
  case illegal =>
    intro s p rest c more why hs hidle hpending hwait hagent hdecode hopc hlen
    have hcarries : carriesPayload c.word = true := by simpa [carriesPayload] using hopc
    rw [step_of_illegal hs hidle hpending hwait hagent hdecode]
    exact illegalStep_malformed hcarries hlen
  case foreign =>
    intro s p rest c more hs hidle hpending hwait hagent
    rw [step_of_sched hs, fetch_of_foreign (s := { s with sched := rest }) hidle hpending hwait hagent]
    rfl

end Sys2Proof.Machine
end

section
/-! SUPPORT. Lifecycle operations that fail (R131, R133, R227): the command is accepted and answered 0, and at most a
fault is recorded. -/

namespace Sys2Proof.Machine

/-- A request below 4, above the largest capacity, or above the storage fails (R131). -/
theorem initFails_eq_true {c : Config} {capReq : Half}
    (h : capReq.toNat < 4 ∨ c.capMax < capReq.toNat ∨ c.storageBytes < capReq.toNat) : initFails c capReq = true := by
  have hsmall : capReq.toNat < 4 → alignDown capReq.toNat = 0 := by unfold alignDown; omega
  simp only [initFails, Bool.or_eq_true, decide_eq_true_eq]
  omega

/-- A request that fails answers 0 and records the race, or else the violation (R133, R231). -/
theorem bindStorage_fails {s : State} {i : Instr} {c : Half} (h : s.canAccept .host i)
    (hbad : initFails s.cfg c = true) :
    bindStorage i c s = .next ((((s.accept .host).raiseIf (lifecycleRace i (s.accept .host))).violated
      (lifecycleRace i (s.accept .host)) i).respond .host Response.zero) := by
  obtain ⟨hidle, hlen⟩ := h
  rw [bindStorage, accepting_eq (busy_of_idle hidle) hlen]
  exact if_pos hbad

/-- Settles O13: recording and answering touch no register and no cell, and with ports P and C idle there is no race, so
what is recorded is the violation. -/
theorem initAndCreateFail : Obligations.InitAndCreateFail := by
  intro s c i hi h hbad
  have hexec : exec i s = bindStorage i c s := by obtain rfl | rfl := hi <;> rfl
  rw [hexec, bindStorage_fails h (initFails_eq_true hbad)]
  refine ⟨_, rfl, by simp [sameRegisters], by simp, answeredAtOnce_respond _ (by simp), fun hP hC => ?_⟩
  rw [lifecycleRace_of_idle i (by simpa) (by simpa)]
  exact raiseAsserting_faults (s.accept .host) (.preconditionViolated i s.inited s.cap)

end Sys2Proof.Machine
end

section
/-! SUPPORT. A force write that overwrites (R172 to R179) is a read of the bytes there is no room for, and then a write
that fits: the forced read cursor is the old one advanced past those bytes. -/

namespace Sys2Proof.Machine

/-! ### The forced read cursor -/

section ForcedRead

variable {c w r : Cursor} {n e cap : Nat}

/-- A cursor advanced by the whole buffer is on the opposite lap at the same index (R55, R176). -/
theorem adv_cap (hs : cap < 32768) (hc : c.idx.toNat < cap) : adv c cap cap = forcedRead c := by
  rw [cursor_eq_iff, adv_idx_toNat hc le_rfl hs, adv_lap]
  simp [forcedRead]

/-- An advance does not depend on the lap it starts in (R55). -/
theorem adv_forcedRead (c : Cursor) (n cap : Nat) : adv (forcedRead c) n cap = forcedRead (adv c n cap) := by
  unfold adv forcedRead
  split <;> rfl

theorem forcedRead_forcedRead (c : Cursor) : forcedRead (forcedRead c) = c := by
  simp [forcedRead]

/-- A write beyond the free bytes goes `e` bytes further than the full buffer, so the forced read cursor has passed just
the `e` oldest bytes (R176, R178). -/
theorem InLapOrder.forcedRead_adv (h : InLapOrder w r cap) (he : freeLen w r cap + e ≤ cap) :
    forcedRead (adv w (freeLen w r cap + e) cap) = adv r e cap := by
  have hfull : adv w (freeLen w r cap) cap = forcedRead r := by
    have hsum := adv_adv h.small h.rIdx h.dataLen_add_freeLen.le
    rwa [h.adv_dataLen, h.dataLen_add_freeLen, adv_cap h.small h.rIdx] at hsum
  rw [← adv_adv h.small h.wIdx he, hfull, adv_forcedRead, forcedRead_forcedRead]

/-- The source's test on the new write index finds the lap of the read cursor advanced by one byte or more: the index is
at most the old one exactly when the advance reached the end of storage (R177). -/
theorem forcedReadBySource_forcedRead_adv (hs : cap < 32768) (hr : r.idx.toNat < cap) (he : 0 < e) (hle : e ≤ cap) :
    forcedReadBySource (forcedRead (adv r e cap)) r = adv r e cap := by
  have hidx := adv_idx_toNat hr hle hs
  have htest : (adv r e cap).idx.toNat ≤ r.idx.toNat ↔ cap ≤ r.idx.toNat + e := by
    split_ifs at hidx <;> omega
  simp [cursor_eq_iff, forcedReadBySource, forcedRead, adv_lap, htest]

end ForcedRead

/-- Settles O11: both forms are the read cursor advanced past the overwritten bytes, of which there is at least one. -/
theorem forcedReadFormsAgree : Obligations.ForcedReadFormsAgree := by
  intro w r n cap hw hr hs hlap hn hover
  have h : InLapOrder w r cap := ⟨hs, hw, hr, hlap⟩
  have hfull := forcedRead_full hs (adv_idx_lt hw hn hs)
  refine ⟨?forms, hfull.1.status_full_iff.mpr hfull.2⟩
  obtain ⟨e, rfl⟩ := Nat.exists_eq_add_of_le hover.le
  have hread := h.forcedRead_adv hn
  calc forcedRead (adv w (freeLen w r cap + e) cap)
    _ = adv r e cap := hread
    _ = forcedReadBySource (forcedRead (adv r e cap)) r :=
        (forcedReadBySource_forcedRead_adv hs hr (by omega) (by omega)).symm
    _ = forcedReadBySource (adv w (freeLen w r cap + e) cap) r := by rw [← hread, forcedRead_forcedRead]

/-! ### Content after a force write -/

theorem length_content (s : State) : s.content.length = dataLen s.wc s.rc s.cap.toNat := by
  simp [State.content]

/-- Once the read cursor has advanced past `n` bytes, the content is what stood behind them (R39, R187). -/
theorem content_drop {s t : State} {n : Nat} (ho : InLapOrder s.wc s.rc s.cap.toNat)
    (hn : n ≤ dataLen s.wc s.rc s.cap.toNat) (hcap : t.cap = s.cap) (hwc : t.wc = s.wc)
    (hrc : t.rc = adv s.rc n s.cap.toNat) (hmem : t.mem = s.mem) : t.content = s.content.drop n := by
  rw [content_split ho hn hcap hwc hrc hmem, List.drop_left' (by simp)]

/-- Writing `bs` and moving the read cursor past the bytes there is no room for loses just those and appends `bs`
(R178, R179). -/
theorem content_force {s t : State} {bs : List Byte} (ho : InLapOrder s.wc s.rc s.cap.toNat)
    (hlen : bs.length ≤ s.cap.toNat) (hcap : t.cap = s.cap)
    (hrc : t.rc = adv s.rc (bs.length - freeLen s.wc s.rc s.cap.toNat) s.cap.toNat)
    (hwc : t.wc = adv s.wc bs.length s.cap.toNat) (hmem : t.mem = writeAll s.wc s.cap.toNat 0 bs s.mem) :
    t.content = s.content.drop (bs.length - freeLen s.wc s.rc s.cap.toNat) ++ bs.map some := by
  have hsum := ho.dataLen_add_freeLen
  obtain ⟨e, he⟩ : ∃ e, bs.length - freeLen s.wc s.rc s.cap.toNat = e := ⟨_, rfl⟩
  rw [he] at hrc ⊢
  have hbuf : e ≤ dataLen s.wc s.rc s.cap.toNat := by omega
  have hread := content_drop (t := { s with rc := adv s.rc e s.cap.toNat }) ho hbuf rfl rfl rfl rfl
  rw [← hread]
  refine content_append (ho.adv_rc hbuf) ?room hcap hrc hwc hmem
  show bs.length ≤ freeLen s.wc (adv s.rc e s.cap.toNat) s.cap.toNat
  rw [freeLen, ho.dataLen_adv_rc hbuf]
  omega

/-- The newest `k` items of two runs are those of the later run, at most `k`, behind as many of the earlier run as there
is still room for. -/
theorem drop_append_newest {α : Type} {xs : List α} (ys : List α) {k : Nat} (h : xs.length ≤ k) :
    (xs ++ ys).drop (xs.length + ys.length - k) =
      xs.drop (min ys.length k - (k - xs.length)) ++ ys.drop (ys.length - min ys.length k) := by
  rw [List.drop_append]
  congr 1
  · rw [List.drop_eq_drop_iff]
    omega
  · congr 1
    omega

/-- The read cursor after a force write of `n` bytes, which overwrites exactly when they have no room (R175, R176). -/
theorem InLapOrder.forced_rc {w r : Cursor} {n cap : Nat} (h : InLapOrder w r cap) (hn : n ≤ cap) :
    (if freeLen w r cap < n then forcedRead (adv w n cap) else r) = adv r (n - freeLen w r cap) cap := by
  split
  case isTrue hover =>
    obtain ⟨e, rfl⟩ := Nat.exists_eq_add_of_le hover.le
    rw [h.forcedRead_adv hn, Nat.add_sub_cancel_left]
  case isFalse hfits =>
    rw [Nat.sub_eq_zero_of_le (Nat.le_of_not_lt hfits), adv_inside (n := 0) h.rIdx]
    simp

/-- Settles O41: the last `min(len, cap)` bytes of the payload are written, and the oldest of the content make room. -/
theorem putForceKeepsNewestBytes : Obligations.PutForceKeepsNewestBytes := by
  intro s len d hs _ hd
  have ho := inLapOrder_of_initedOk hs
  have hbuf : s.content.length ≤ s.cap.toNat := (length_content s).trans_le ho.dataLen_le
  obtain ⟨n, hn⟩ : ∃ n, min d.length s.cap.toNat = n := ⟨_, rfl⟩
  have hcap : n ≤ s.cap.toNat := by omega
  have hplan : putForcePlan len (s.snapshot .producer true) =
      forcePlan n (d.length - n) (decide (freeLen s.wc s.rc s.cap.toNat < n)) ⟨s.cap, s.wc, s.rc⟩ := by
    simp [putForcePlan, putForceCount, State.snapshot_now, ← hd, hn]
  obtain ⟨bs, hbs⟩ : ∃ bs, d.drop (d.length - n) = bs := ⟨_, rfl⟩
  have hlen : bs.length = n := by
    rw [← hbs, List.length_drop]
    omega
  refine ⟨?content, ?response⟩
  case content =>
    have hnewest := drop_append_newest (d.map some) hbuf
    rw [List.length_map, hn, length_content, ← freeLen, ← List.map_drop, hbs, ← length_content, ← hlen] at hnewest
    rw [hnewest]
    refine content_force ho (by omega) rfl ?rc ?wc ?mem
    case rc =>
      rw [hlen, ← ho.forced_rc hcap]
      simp [atomicPutForce, State.writeThrough, hplan, forcePlan, apply_ite (Option.getD · s.rc)]
    case wc => simp [atomicPutForce, State.writeThrough, hplan, forcePlan, hlen]
    case mem => simp [atomicPutForce, State.writeThrough, hplan, forcePlan, hbs, List.take_of_length_le hlen.le]
  case response =>
    have hr0 : (atomicPutForce len d s).2.r0 = BitVec.ofNat 16 n := by
      simp [atomicPutForce, Response.value, hplan, forcePlan]
    rw [hr0, ← hd, hn]
    exact count_toNat hcap

end Sys2Proof.Machine
end

section
/-! SUPPORT. `PEEK` under `fresh` (R191 to R194): it exposes the buffered bytes up to the last cell and moves the read
cursor past them, so what it leaves, if anything, starts at cell 0 and is one run. -/

namespace Sys2Proof.Machine

/-- How many bytes a `PEEK` that sees the committed cursors exposes (R57, R193). -/
def State.peekRun (s : State) : Nat := contig s.rc (dataLen s.wc s.rc s.cap.toNat) s.cap.toNat

/-- The state such a `PEEK` leaves under `fresh`: the read cursor has moved past the exposed bytes (R191). -/
def State.peeked (s : State) : State := { s with staleWc := [], rc := adv s.rc s.peekRun s.cap.toNat }

@[simp] theorem State.peeked_mem (s : State) : s.peeked.mem = s.mem := rfl

/-- The cells the response of `PEEK` names: `R0` cells from cell `R1` upward (R194). -/
def State.peekWindow (s : State) : List (Option Byte) :=
  (List.range (atomicPeek s).2.r0.toNat).map fun i => Memory.read? s.mem ((atomicPeek s).2.r1.toNat + i)

section FreshPeek

variable {s : State}

theorem atomicPeek_fresh (hf : s.cfg.cursorView = .fresh) :
    atomicPeek s = (s.peeked, if s.peekRun = 0 then Response.zero
      else { r0 := BitVec.ofNat 16 s.peekRun, r1 := s.rc.idx.setWidth 16, payload := [] }) := by
  have hcommit : (s.sampled .consumer false).commitCursors (readPlan s.peekRun ⟨s.cap, s.wc, s.rc⟩) = s.peeked := by
    simp [State.sampled, State.mayBeStale, State.commitCursors, readPlan, remember, State.peeked, hf]
  rw [atomicPeek, s.snapshot_fresh _ _ hf]
  exact congrArg (·, _) hcommit

theorem atomicPeek_state (hf : s.cfg.cursorView = .fresh) : (atomicPeek s).1 = s.peeked :=
  congrArg Prod.fst (atomicPeek_fresh hf)

/-- What `PEEK` exposes is buffered (R193). -/
theorem peekRun_le (s : State) : s.peekRun ≤ dataLen s.wc s.rc s.cap.toNat := Nat.min_le_left _ _

theorem peekRun_eq_zero (h : dataLen s.wc s.rc s.cap.toNat = 0) : s.peekRun = 0 :=
  Nat.eq_zero_of_le_zero (h ▸ peekRun_le s)

/-- What `PEEK` exposes does not pass the last cell (R57). -/
theorem idx_add_peekRun_le (ho : InLapOrder s.wc s.rc s.cap.toNat) : s.rc.idx.toNat + s.peekRun ≤ s.cap.toNat := by
  have hrun : s.peekRun ≤ s.cap.toNat - s.rc.idx.toNat := Nat.min_le_right _ _
  have := ho.rIdx
  omega

theorem atomicPeek_r0 (hf : s.cfg.cursorView = .fresh) (ho : InLapOrder s.wc s.rc s.cap.toNat) :
    (atomicPeek s).2.r0.toNat = s.peekRun := by
  rw [atomicPeek_fresh hf]
  by_cases h0 : s.peekRun = 0
  · rw [if_pos h0, h0]
    rfl
  · rw [if_neg h0]
    exact count_toNat ((peekRun_le s).trans ho.dataLen_le)

theorem atomicPeek_r1 (hf : s.cfg.cursorView = .fresh) :
    (atomicPeek s).2.r1 = if s.peekRun = 0 then 0 else s.rc.idx.setWidth 16 := by
  rw [atomicPeek_fresh hf]
  exact apply_ite Response.r1 _ _ _

/-- The start index is 0 where the buffer is empty, and where the oldest byte is in cell 0 (R192, R194). -/
theorem atomicPeek_r1_eq_zero (hf : s.cfg.cursorView = .fresh)
    (h : dataLen s.wc s.rc s.cap.toNat = 0 ∨ s.rc.idx = 0) : (atomicPeek s).2.r1 = 0 := by
  rw [atomicPeek_r1 hf]
  obtain hempty | hzero := h
  · exact if_pos (peekRun_eq_zero hempty)
  · rw [hzero]
    exact ite_self _

/-- The cells the response names are those at the first offsets from the read cursor (R54, R194). -/
theorem peekWindow_eq (hf : s.cfg.cursorView = .fresh) (ho : InLapOrder s.wc s.rc s.cap.toNat) :
    s.peekWindow = (List.range s.peekRun).map fun i => Memory.read? s.mem (addr s.rc i s.cap.toNat) := by
  have hend := idx_add_peekRun_le ho
  rw [State.peekWindow, atomicPeek_r0 hf ho]
  refine List.map_congr_left fun i hi => congrArg _ ?_
  have hi := List.mem_range.mp hi
  have hidx : (s.rc.idx.setWidth 16).toNat = s.rc.idx.toNat := BitVec.toNat_setWidth_of_le (by decide)
  rw [atomicPeek_r1 hf, if_neg (by omega), hidx, addr, if_neg (by omega)]

theorem peeked_order (ho : InLapOrder s.wc s.rc s.cap.toNat) :
    InLapOrder s.peeked.wc s.peeked.rc s.peeked.cap.toNat := ho.adv_rc (peekRun_le s)

/-- A `PEEK` takes the bytes it exposes from the front of the content (R39, R194). -/
theorem content_eq_peekWindow_append (hf : s.cfg.cursorView = .fresh) (ho : InLapOrder s.wc s.rc s.cap.toNat) :
    s.content = s.peekWindow ++ s.peeked.content := by
  rw [peekWindow_eq hf ho]
  exact content_split ho (peekRun_le s) rfl rfl rfl rfl

/-- A `PEEK` that leaves bytes behind stopped at the last cell, and the read cursor is at cell 0 (R55, R193). -/
theorem peeked_empty_or_at_zero (ho : InLapOrder s.wc s.rc s.cap.toNat) :
    dataLen s.peeked.wc s.peeked.rc s.peeked.cap.toNat = 0 ∨ s.peeked.rc.idx = 0 := by
  obtain hall | hend : s.peekRun = dataLen s.wc s.rc s.cap.toNat ∨ s.peekRun = s.cap.toNat - s.rc.idx.toNat :=
    min_choice _ _
  · left
    rw [← Nat.sub_eq_zero_of_le hall.ge]
    exact ho.dataLen_adv_rc (peekRun_le s)
  · right
    have := ho.rIdx
    show (adv s.rc s.peekRun s.cap.toNat).idx = 0
    rw [adv_wraps (by omega), hend, Nat.add_sub_cancel' ho.rIdx.le, Nat.sub_self]
    rfl

/-- Buffered bytes that start at cell 0, if there are any, are one run (R57). -/
theorem peekRun_eq_dataLen (ho : InLapOrder s.wc s.rc s.cap.toNat)
    (h : dataLen s.wc s.rc s.cap.toNat = 0 ∨ s.rc.idx = 0) : s.peekRun = dataLen s.wc s.rc s.cap.toNat := by
  have hle := ho.dataLen_le
  refine Nat.min_eq_left ?_
  obtain hempty | hzero := h
  · omega
  · rw [hzero]
    exact hle

/-- Where a `PEEK` exposes all bytes there are, nothing is left buffered. -/
theorem dataLen_peeked_eq_zero (ho : InLapOrder s.wc s.rc s.cap.toNat)
    (h : s.peekRun = dataLen s.wc s.rc s.cap.toNat) :
    dataLen s.peeked.wc s.peeked.rc s.peeked.cap.toNat = 0 :=
  (ho.dataLen_adv_rc (peekRun_le s)).trans (Nat.sub_eq_zero_of_le h.ge)

end FreshPeek

/-- Settles O43: the first `PEEK` stops at the last cell or has exposed all, so the second exposes what is left. -/
theorem twoPeeksExposeEverything : Obligations.TwoPeeksExposeEverything := by
  intro s hs _ hf
  have hf' : s.peeked.cfg.cursorView = .fresh := hf
  have hf'' : s.peeked.peeked.cfg.cursorView = .fresh := hf
  have ho := inLapOrder_of_initedOk hs
  have ho' := peeked_order ho
  have hrest := peeked_empty_or_at_zero ho
  have hempty := dataLen_peeked_eq_zero ho' (peekRun_eq_dataLen ho' hrest)
  have hr1 := atomicPeek_r1_eq_zero hf' hrest
  have hwindow : s.peeked.peekWindow =
      (List.range (atomicPeek s.peeked).2.r0.toNat).map fun i => Memory.read? s.mem i := by
    simp [State.peekWindow, hr1]
  have hnone : s.peeked.peeked.content = [] := List.eq_nil_of_length_eq_zero ((length_content _).trans hempty)
  rw [atomicPeek_state hf, atomicPeek_state hf', ← hwindow]
  refine ⟨?content, ?third, rfl, hr1⟩
  case content =>
    rw [content_eq_peekWindow_append hf ho, content_eq_peekWindow_append hf' ho', hnone, List.append_nil]
    rfl
  case third => exact BitVec.eq_of_toNat_eq ((atomicPeek_r0 hf'' (peeked_order ho')).trans (peekRun_eq_zero hempty))

end Sys2Proof.Machine
end

section
/-! SUPPORT. Single bytes (R205 to R219): `PUTCHAR`, `PUTCHAR_FORCE` and `GETCHAR` take, for any two cursors in lap order,
the plan of the bulk operation of length 1. -/

namespace Sys2Proof.Machine

/-! ### The unit advance -/

/-- Settles O8: the sum reaches `cap` exactly from the last cell. -/
theorem unitAdvance : Obligations.UnitAdvance := by
  intro c cap hc hs
  refine ⟨?advance, if_neg (Nat.not_le.mpr hc)⟩
  split
  case isTrue hlast =>
    rw [adv_wraps (by omega), show c.idx.toNat + 1 - cap = 0 by omega]
    rfl
  case isFalse hbefore =>
    rw [adv_inside (by omega), BitVec.ofNat_add, BitVec.ofNat_toNat, BitVec.setWidth_eq]
    rfl

/-- On a full buffer the read cursor stands one lap behind the write cursor (R30, R176). -/
theorem eq_forcedRead_of_status_full {w r : Cursor} (h : status w r = .full) : r = forcedRead w := by
  unfold status at h
  split_ifs at h with hidx hlap
  rw [cursor_eq_iff, forcedRead, hidx]
  exact ⟨Bool.eq_not.mpr (Ne.symm hlap), rfl⟩

/-! ### What a sample shows -/

/-- Whichever read cursor of its window port P sees, it is in lap order with the write cursor (R36, R71). -/
theorem snapshot_producer_order {s : State} (hs : s.initedOk) (hw : s.staleRcOk) (now : Bool) :
    InLapOrder (s.snapshot .producer now).wc (s.snapshot .producer now).rc (s.snapshot .producer now).cap.toNat := by
  have ho := inLapOrder_of_initedOk hs
  obtain ⟨hpast, -⟩ := hw
  rw [State.snapshot_producer_wc, State.snapshot_cap]
  obtain hnow | hold := List.mem_cons.mp (snapshot_rc_visible s now).1
  · rwa [hnow]
  · obtain ⟨hrange, hlap⟩ := hpast _ hold
    exact ⟨ho.small, ho.wIdx, hrange, hlap⟩

/-- Whichever write cursor of its window port C sees, it is in lap order with the read cursor (R36, R71). -/
theorem snapshot_consumer_order {s : State} (hs : s.initedOk) (hw : s.staleWcOk) (now : Bool) :
    InLapOrder (s.snapshot .consumer now).wc (s.snapshot .consumer now).rc (s.snapshot .consumer now).cap.toNat := by
  have ho := inLapOrder_of_initedOk hs
  obtain ⟨hpast, -⟩ := hw
  rw [State.snapshot_consumer_rc, State.snapshot_cap]
  obtain hnow | hold := List.mem_cons.mp (snapshot_wc_visible s now).1
  · rwa [hnow]
  · obtain ⟨hrange, hlap⟩ := hpast _ hold
    exact ⟨ho.small, hrange, ho.rIdx, hlap⟩

/-- Under `fresh` it makes no difference whether a sample asks for the present (R70). -/
theorem sampled_fresh {s : State} (hf : s.cfg.cursorView = .fresh) (p : Port) (now : Bool) :
    s.sampled p now = s.sampled p true := by
  simp [State.sampled, State.mayBeStale, hf]

/-! ### Plans of one byte -/

/-- A buffer has no room exactly when it is full (R32, R208). -/
theorem InLapOrder.freeLen_eq_zero_iff {w r : Cursor} {cap : Nat} (h : InLapOrder w r cap) :
    freeLen w r cap = 0 ↔ status w r = .full := by
  have := h.dataLen_add_freeLen
  rw [h.status_full_iff]
  omega

section OneByte

variable {v : Snapshot} (h : InLapOrder v.wc v.rc v.cap.toNat)

include h

/-- `PUT 1` and `PUTCHAR` write the same number of bytes (R207). -/
theorem putCount_one : putCount 1 v = putcharCount v := by
  obtain ⟨hfull, hroom⟩ := h.freeLen_of_status
  unfold putCount putcharCount
  split
  · rw [hfull ‹_›, Nat.min_zero]
  · exact Nat.min_eq_left (hroom ‹_›)

theorem putPlan_one : putPlan 1 v = putcharPlan v := by
  rw [putPlan, putCount_one h, putcharPlan]

/-- `GET 1` and `GETCHAR` read the same number of bytes (R211). -/
theorem getCount_one : getCount 1 v = getcharCount v := by
  have hempty := h.status_empty_iff
  unfold getCount getcharCount
  split
  · rw [hempty.mp ‹_›, Nat.min_zero]
  · exact Nat.min_eq_left (Nat.one_le_iff_ne_zero.mpr (mt hempty.mpr ‹_›))

/-- `PUT_FORCE 1` drops no byte, and overwrites exactly when the buffer is full (R215). -/
theorem putForcePlan_one : putForcePlan 1 v = putcharForcePlan v := by
  have hcount : putForceCount 1 v = 1 := Nat.min_eq_left (Nat.zero_lt_of_lt h.wIdx)
  simp only [putForcePlan, hcount, Nat.lt_one_iff, h.freeLen_eq_zero_iff]
  rfl

end OneByte

/-- Where there is room a forced byte is planned like any other (R217). -/
theorem putcharForcePlan_of_not_full {v : Snapshot} (h : status v.wc v.rc ≠ .full) :
    putcharForcePlan v = putcharPlan v := by
  simp [putcharForcePlan, putcharPlan, putcharCount, forcePlan, writePlan, h]

/-! ### Single-byte writes -/

/-- A buffer that is full is full for any read cursor port P may see (R71). -/
theorem putcharCount_of_full {s : State} (hs : s.initedOk) (hw : s.staleRcOk) (h : status s.wc s.rc = .full) :
    putcharCount (s.snapshot .producer false) = 0 := by
  have hseen := (snapshot_producer_order hs hw false).freeLen_eq_zero_iff
  obtain ⟨-, hwindow⟩ := hw
  have hroom := freeLen_snapshot_le hwindow false (.head _)
  rw [State.snapshot_producer_wc, State.snapshot_cap] at hseen
  rw [(inLapOrder_of_initedOk hs).freeLen_eq_zero_iff.mpr h] at hroom
  rw [putcharCount, State.snapshot_producer_wc, if_pos (hseen.mp (Nat.le_zero.mp hroom))]

/-- Settles O44: both operations take the same plan, which on a full buffer moves no byte and no cursor. -/
theorem putcharEqualsPutOfOne : Obligations.PutcharEqualsPutOfOne := by
  intro s b hs hw
  have ho := inLapOrder_of_initedOk hs
  refine ⟨ho.freeLen_eq_zero_iff, ?same, fun hfull => ?full⟩
  case same => rw [atomicPutchar, atomicPut, putPlan_one (snapshot_producer_order hs hw false)]
  case full =>
    obtain ⟨-, -, hstay, -⟩ := advanceFlipsLapAtEnd s.wc 0 s.cap.toNat ho.wIdx (Nat.zero_le _) ho.small
    simp [atomicPutchar, putcharPlan, putcharCount_of_full hs hw hfull, writePlan, State.writeThrough,
      State.commitCursors, writeAll, hstay, Response.value]

/-- Settles O45: both force writes take the same plan, and where there is room so does `PUTCHAR`. -/
theorem putcharForceEqualsPutForceOfOne : Obligations.PutcharForceEqualsPutForceOfOne := by
  intro s b hs
  refine ⟨?same, rfl, fun hf hroom => ?room⟩
  case same =>
    have ho : InLapOrder (s.snapshot .producer true).wc (s.snapshot .producer true).rc
        (s.snapshot .producer true).cap.toNat := s.snapshot_now .producer ▸ inLapOrder_of_initedOk hs
    rw [atomicPutcharForce, atomicPutForce, putForcePlan_one ho]
  case room =>
    rw [atomicPutcharForce, atomicPutchar, sampled_fresh hf .producer false, s.snapshot_fresh _ _ hf,
      s.snapshot_fresh _ _ hf, putcharForcePlan_of_not_full hroom]

/-- `PUTCHAR_FORCE` on a full buffer commits the unit advance to the write cursor and keeps the read cursor one lap
behind it (R214, R216). -/
theorem atomicPutcharForce_of_full {s : State} (b : Byte) (h : status s.wc s.rc = .full) :
    (atomicPutcharForce b s).1.wc = adv s.wc 1 s.cap.toNat ∧
      (atomicPutcharForce b s).1.rc = forcedRead (adv s.wc 1 s.cap.toNat) := by
  simp [atomicPutcharForce, State.snapshot_now, putcharForcePlan, forcePlan, State.writeThrough, State.commitCursors, h]

/-- Settles O47: the write cursor makes a unit advance, and the read cursor stays one lap behind it. -/
theorem putcharForceOnFullStepsBoth : Obligations.PutcharForceOnFullStepsBoth := by
  intro s b hs _ hfull
  have ho := inLapOrder_of_initedOk hs
  have hrc := eq_forcedRead_of_status_full hfull
  have hfree := ho.freeLen_eq_zero_iff.mpr hfull
  obtain ⟨hadv, -⟩ := unitAdvance s.wc s.cap.toNat ho.wIdx ho.small
  obtain ⟨hsource, -⟩ := forcedReadFormsAgree s.wc s.rc 1 s.cap.toNat ho.wIdx ho.rIdx ho.small ho.order
    (Nat.one_le_of_lt ho.wIdx) (by omega)
  obtain ⟨hwc', hrc'⟩ := atomicPutcharForce_of_full b hfull
  rw [hwc', hrc']
  refine ⟨fun hbefore => ?before, fun hlast => ?last, ?laps, hsource⟩
  case before =>
    rw [hadv, if_neg hbefore.ne, hrc]
    exact ⟨rfl, rfl⟩
  case last =>
    rw [hadv, if_pos hlast, hrc]
    exact ⟨rfl, rfl⟩
  case laps => simp [forcedRead]

/-! ### The single-byte read -/

/-- Settles O46: both reads take the same plan, of no byte or of one. -/
theorem getcharEqualsGetOfOne : Obligations.GetcharEqualsGetOfOne := by
  intro s hs hw
  have hcount := getCount_one (snapshot_consumer_order hs hw false)
  refine ⟨(inLapOrder_of_initedOk hs).status_empty_iff.symm, ?_⟩
  rw [atomicGetchar, atomicGet, hcount]
  obtain hn | hn := Nat.le_one_iff_eq_zero_or_eq_one.mp (getcharCount_le_one (s.snapshot .consumer false))
  all_goals
    rw [hn]
    exact ⟨rfl, rfl, rfl⟩

end Sys2Proof.Machine
end

section
/-! SUPPORT. What the block records: a lifecycle operation beside a busy port (R271), a force write overlapping a read
(R270), and a data operation in the UNINIT state (R227, R228). -/

namespace Sys2Proof.Machine

/-! ### Lifecycle operations beside a busy port -/

theorem mem_busyWith {s : State} {p : Port} {f : Flight} (hf : (s.port p).flight = some f) :
    (p, f.op) ∈ s.busyWith p := by
  simp [State.busyWith, hf]

/-- Beside a busy port a lifecycle operation is a race that names the port and its operation (R271). -/
theorem lifecycleRace_of_busy {s : State} {p : Port} {f : Flight} (i : Instr) (hp : p ≠ .host)
    (hf : (s.port p).flight = some f) :
    ∃ busy, lifecycleRace i s = some (.raceLifecycle i busy) ∧ (p, f.op) ∈ busy := by
  have hmem : (p, f.op) ∈ s.busyWith .producer ++ s.busyWith .consumer := by
    cases p with
    | producer => exact List.mem_append_left _ (mem_busyWith hf)
    | consumer => exact List.mem_append_right _ (mem_busyWith hf)
    | host => exact absurd rfl hp
  unfold lifecycleRace
  split
  · rename_i hnil
    simp [hnil] at hmem
  · rename_i hcons
    exact ⟨_, rfl, hcons ▸ hmem⟩

/-- A lifecycle operation that can be accepted answers a next state, race or not (R226, log entry 7). -/
theorem exec_lifecycle_answers {s : State} {i : Instr} (hi : isLifecycle i = true) (h : s.canAccept .host i) :
    ∃ t, exec i s = .next t := by
  obtain ⟨hidle, hlen⟩ := h
  cases i with
  | init c | create c =>
    simp only [exec, execInit, execCreate, bindStorage]
    rw [accepting_eq (busy_of_idle hidle) hlen]
    split <;> exact ⟨_, rfl⟩
  | reset =>
    rw [exec, execReset, accepting_eq (busy_of_idle hidle) hlen]
    split <;> exact ⟨_, rfl⟩
  | destroy =>
    rw [exec, execDestroy, accepting_eq (busy_of_idle hidle) hlen]
    exact ⟨_, rfl⟩
  | _ => cases hi

/-- Whether it fails, changes nothing or binds the block, a lifecycle operation keeps what it recorded. -/
theorem LifecycleStep.keepsRecord {i : Instr} {s u t : State} (h : LifecycleStep i s u t) : KeepsRecord u t := by
  have hrefl := KeepsRecord.refl u
  cases h with
  | failed => exact (hrefl.violated i _).of_eq rfl rfl
  | nothing | bound => exact hrefl.of_eq rfl rfl

/-- Settles O16: the race is recorded before the operation fails, does nothing or binds the block. -/
theorem lifecycleRaceRecorded : Obligations.LifecycleRaceRecorded := by
  intro s i p f hi h hp hf
  obtain ⟨t, ht⟩ := exec_lifecycle_answers hi h
  obtain ⟨busy, hrace, hmem⟩ := lifecycleRace_of_busy (s := s.accept .host) (f := f) i hp (by simpa [hp] using hf)
  have hrec := (exec_lifecycle_next hi ht).keepsRecord
  rw [hrace] at hrec
  exact ⟨t, busy, ht, hrec.faults (State.mem_raise_faults _ |>.mpr (.inl rfl)), hmem⟩

/-! ### Force writes beside reads -/

/-- On an initialised block an operation that may not overlap the one in flight races with it, and is named last
(R270). -/
theorem raceAgainst_of_bars {q : Port} {bars : Instr → Bool} {s : State} {f : Flight} (i : Instr)
    (hi : s.inited = true) (hf : (s.port q).flight = some f) (hb : bars f.op = true) :
    raceAgainst q bars i s = some (.raceForce f.op i) := by
  simp [raceAgainst, hi, hf, hb]

/-- A `SAMPLE` on an initialised block records the race its check finds, and goes on (R226, R231). -/
theorem phased_sample_records {p : Port} {i : Instr} {race : Instr → State → Option RecordedFault} {now : Bool}
    {plan : Snapshot → Plan} {data : List Byte → List Byte} {xfer com : Flight → State → Result} {s : State}
    {g : RecordedFault} (h : s.canAccept p i) (hi : s.inited = true) (hrace : race i (s.accept p) = some g) :
    ∃ t, phased p i (fun d t => sample p i race now plan (data d) t) xfer com s = .next t ∧ g ∈ t.faults := by
  obtain ⟨hidle, hlen⟩ := h
  rw [phased_idle hidle, accepting_eq (busy_of_idle hidle) hlen, sample_inited (s := s.accept p) hi, hrace]
  exact ⟨_, rfl, State.mem_raise_faults _ |>.mpr (.inl rfl)⟩

theorem writesCells_of_isForceWrite {i : Instr} (h : isForceWrite i = true) : writesCells i = true := by
  cases i with
  | putForce | putcharForce => rfl
  | _ => cases h

/-- Settles O29: either operation checks for the other at its `SAMPLE`. -/
theorem forceRaceRecorded : Obligations.ForceRaceRecorded := by
  intro s i f hi
  refine ⟨fun hforce h hf hr => ?write, fun hr h hf hforce => ?read⟩
  case write =>
    have hrace : writeOpRace i i (s.accept .producer) = some (.raceForce f.op i) := by
      rw [writeOpRace, if_pos hforce, forceWriteRace, raceAgainst_accept]
      exact raceAgainst_of_bars i hi hf hr
    rw [exec_write (writesCells_of_isForceWrite hforce)]
    exact phased_sample_records h hi hrace
  case read =>
    have hrace : readRace i (s.accept .consumer) = some (.raceForce f.op i) :=
      (raceAgainst_accept _ _ _ _ _).trans (raceAgainst_of_bars i hi hf hforce)
    rw [exec_read hr]
    exact phased_sample_records (data := id) h hi hrace

/-! ### Data operations in the UNINIT state -/

/-- In the UNINIT state no operation races with another (R270). -/
theorem raceAgainst_of_uninit {s : State} (q : Port) (bars : Instr → Bool) (i : Instr) (hi : s.inited = false) :
    raceAgainst q bars i s = none := by
  simp [raceAgainst, hi]

theorem writeOpRace_of_uninit {s : State} (i : Instr) (hi : s.inited = false) : writeOpRace i i s = none := by
  unfold writeOpRace
  split
  · exact raceAgainst_of_uninit _ _ _ hi
  · rfl

/-- A phased operation that finds the block UNINIT and no race is a violation, answered at once (R227, R228). -/
theorem phased_sample_uninit {p : Port} {i : Instr} {race : Instr → State → Option RecordedFault} {now : Bool}
    {plan : Snapshot → Plan} {data : List Byte → List Byte} {xfer com : Flight → State → Result} {s : State}
    (h : s.canAccept p i) (hi : s.inited = false) (hrace : race i (s.accept p) = none) :
    phased p i (fun d t => sample p i race now plan (data d) t) xfer com s =
      .next (((s.accept p).violated none i).respond p Response.zero) := by
  obtain ⟨hidle, hlen⟩ := h
  rw [phased_idle hidle, accepting_eq (busy_of_idle hidle) hlen, sample_uninit (s := s.accept p) hi, hrace,
    State.raiseIf_none]

/-- A data operation is a write operation of port P, or a read operation or `RDMEM` of port C (R92, R227). -/
theorem isDataOp_cases {i : Instr} (h : isDataOp i = true) (s : State) :
    (writesCells i = true ∧ s.portOf i = .producer) ∨
      ((movesReadCursor i = true ∨ ∃ x, i = .rdmem x) ∧ s.portOf i = .consumer) := by
  cases i with
  | put | putForce | putchar | putcharForce => exact .inl ⟨rfl, rfl⟩
  | get | getchar | peek => exact .inr ⟨.inl rfl, rfl⟩
  | rdmem x => exact .inr ⟨.inr ⟨x, rfl⟩, rfl⟩
  | _ => cases h

/-- In the UNINIT state every data operation is one violation, answered at once (R227, R228). -/
theorem exec_dataOp_uninit {s : State} {i : Instr} (hd : isDataOp i = true) (h : s.canAccept (s.portOf i) i)
    (hi : s.inited = false) :
    exec i s = .next (((s.accept (s.portOf i)).violated none i).respond (s.portOf i) Response.zero) := by
  obtain ⟨hw, hport⟩ | ⟨hr | ⟨x, rfl⟩, hport⟩ := isDataOp_cases hd s <;> rw [hport] at h ⊢
  · rw [exec_write hw]
    exact phased_sample_uninit h hi (writeOpRace_of_uninit i hi)
  · rw [exec_read hr]
    exact phased_sample_uninit (data := id) h hi (raceAgainst_of_uninit _ _ i hi)
  · rw [exec, execRdmem, accepting_eq (busy_of_idle h.1) h.2]
    exact if_neg fun hin => absurd hin.1 (by simp [hi])

/-- Settles O28: accepting, recording and answering touch no register and no cell. -/
theorem uninitDataOperationsAnswerZero : Obligations.UninitDataOperationsAnswerZero := by
  intro s i hd h hi
  obtain ⟨hdegrade, hassert⟩ := violated_none_faults (s.accept (s.portOf i)) i
  rw [State.accept_inited, State.accept_cap, hi] at hassert
  exact ⟨_, exec_dataOp_uninit hd h hi, by simp [sameRegisters], by simp, answeredAtOnce_respond _ (by simp), hdegrade,
    hassert⟩

end Sys2Proof.Machine
end
